-- ==== Sys2Proof/Word.lean ====
section
/-! DEFINITION. The widths of the block's values: 00_scope.md R6 to R9, R12. -/

namespace Sys2Proof

/-- A bus word, an identifier, a count, a command word: 32 bits (R6 ID_W, R11). -/
abbrev Word := BitVec 32

/-- One symbol, and one byte lane of a bus word: SYM_W = 8 bits (R9). -/
abbrev Byte := BitVec 8

/-- A nibble of an identifier, a freshness value, a mask: 4 bits (R6 NIB_W, FRESH_W). -/
abbrev Nibble := BitVec 4

/-- One KeyTable entry: KEY_W = 16 bits, unsigned (R7). -/
abbrev KeyEntry := BitVec 16

/-- A stored signature: SIG_W = 14 bits (R6). -/
abbrev Sig := BitVec 14

/-- A payload: PAYLOAD_W = 50 bits (R6, R92). -/
abbrev Payload := BitVec 50

/-- The index of a symbol: SYM_IDX_W = 5 bits (R6). -/
abbrev SymIndex := BitVec 5

/-- One key-row: KEY_COLS = 8 entries, column 0 first (R6, R22). -/
abbrev KeyRow := Vector KeyEntry 8

/-- The KeyTable: KEY_ROWS = 16 rows, row index the freshness value (R6, R22). -/
abbrev KeyTable := Vector KeyRow 16

/-- The Alphabet: ALPHA_N = 32 symbols, position the index value (R6, R25). -/
abbrev Alphabet := Vector Byte 32

/-- A code: CODE_LEN = 10 symbols, symbol 0 the first (R6, R30, R34). -/
abbrev Symbols := Vector Byte 10

end Sys2Proof
end

