-- ==== Sys2Proof/Config.lean ====
section
/-! DEFINITION. What an implementation or its platform fixes, and the free value the spec leaves open. -/

namespace Sys2Proof

/-- SIG_OVF_POLICY (00_scope.md R10): what CFG_COMMIT does with a KeyTable whose largest signature does not fit in
14 bits. The first value, TRUNCATE, is R10's default. -/
inductive SigOvfPolicy
  /-- TRUNCATE (0): the table is accepted and a large sum is stored by its low 14 bits (R152). -/
  | truncate
  /-- REJECT (1): CFG_COMMIT refuses the table (R134). -/
  | reject
deriving DecidableEq, Repr, Inhabited

namespace Config

/-- KEY_W as PARAMS reports it (R7, R88). -/
def keyWidth : Nat := 16

/-- SYM_W as PARAMS reports it (R9, R88). -/
def symWidth : Nat := 8

/-- The largest signature 14 bits hold (R134). -/
def sigCapacity : Nat := 16383

/-- The largest identifier (R180). -/
def maxIdentifier : Nat := 0xFFFFFFFF

/-- The number of symbols of a code (R6 CODE_LEN). -/
def codeLength : Nat := 10

/-- FREE VALUE (log 2): the answer of the entropy input to its `n`-th draw (R266; 93_implementation_defined.md I1).
It has no body: no proof can know any of its values, so a claim holds for every sequence of draws. -/
opaque entropy (n : Nat) : Nibble

/-- PARAMETER (log 9): WINDOW_BASE, the host byte address at which the platform places the register window (R60,
D34). Left open, so it has no body; every rule speaks of offsets. -/
opaque windowBase : Nat

end Config
end Sys2Proof
end

