-- ==== Sys2Proof/Syntax.lean ====
section
/-! DEFINITION. Host accesses, command words and the instructions: one constructor of `Instr` for each row of
spec/opcode_table.json. -/

namespace Sys2Proof

/-- A host bus access at a byte offset of the register window, as it stands on the bus: any offset, any number of
bytes (20_memory.md R61). Which of them the block admits is `admitted`. -/
inductive BusAccess
  /-- `MemRead(off, n)`. -/
  | read (off n : Nat)
  /-- `MemWrite(off, n, v)`; the block looks at `v` only when `n` is 4. -/
  | write (off n : Nat) (v : Word)
deriving DecidableEq, Repr

/-- The freshness selection `sel` of a command word (R122): `Random` when F = 0, `Forced(FRESH)` when F = 1. -/
inductive FreshSel
  | random
  | forced (f : Nibble)
deriving DecidableEq, Repr

/-- What a 32-bit word written to CMD decodes to (30_encoding.md R84): exactly one of these. -/
inductive Cmd
  | nop
  | cfgClear
  | cfgCommit
  | generate (sel : FreshSel)
  | parse
  | batchStart
  | batchNext (sel : FreshSel)
  | illegal
deriving DecidableEq, Repr

/-- The instructions: the rows of spec/opcode_table.json. The rows of format CMD stand for command words, the rest for
bus accesses; `wrCmd` is the bus write that carries a command word. -/
inductive Instr
  /-- NOP: command word 0x00000000 (R125). -/
  | nop
  /-- CFG.CLEAR: command word 0x00000001 (R130). -/
  | cfgClear
  /-- CFG.COMMIT: command word 0x00000002 (R131). -/
  | cfgCommit
  /-- GEN: command word 0x00000003, the freshness drawn (R158). -/
  | gen
  /-- GEN.F f: command word 0x00000013 + 0x100 f, the freshness forced (R158). -/
  | genF (f : Nibble)
  /-- PARSE: command word 0x00000004 (R205). -/
  | parse
  /-- BATCH.START: command word 0x00000005 (R180). -/
  | batchStart
  /-- BATCH.NEXT: command word 0x00000006, the freshness drawn (R181). -/
  | batchNext
  /-- BATCH.NEXT.F f: command word 0x00000016 + 0x100 f, the freshness forced (R181). -/
  | batchNextF (f : Nibble)
  /-- ILLEGAL (reserved OP 0x7): `rest` is bits [31:4] of the word (R126). -/
  | illegalOp7 (rest : BitVec 28)
  /-- ILLEGAL (reserved OP 0x8-0xF): `rest` is bits [31:4], `opLow` bits [2:0] of the word (R126). -/
  | illegalOp8F (rest : BitVec 28) (opLow : BitVec 3)
  /-- ILLEGAL (any other word): a word with OP 0x0 to 0x6 that is not legal (R83, R126). -/
  | illegalOther (w : Word)
  /-- WR KEY[r][c], v (R127). -/
  | wrKey (r : Fin 16) (c : Fin 8) (v : Word)
  /-- WR ALPHA[j], v (R129). -/
  | wrAlpha (j : Fin 32) (v : Word)
  /-- WR ID_IN, v (R231). -/
  | wrIdIn (v : Word)
  /-- WR COUNT_IN, v (R232). -/
  | wrCountIn (v : Word)
  /-- WR CODE_IN_LEN, v (R233). -/
  | wrCodeInLen (v : Word)
  /-- WR CODE_IN0, v (R234). -/
  | wrCodeIn0 (v : Word)
  /-- WR CODE_IN1, v (R234). -/
  | wrCodeIn1 (v : Word)
  /-- WR CODE_IN2, v (R234). -/
  | wrCodeIn2 (v : Word)
  /-- WR STATUS, v: the write-1-to-clear of ERR_STICKY (R235). -/
  | wrStatus (v : Word)
  /-- WR CMD, w: the write that runs the command word `w` (R122). -/
  | wrCmd (w : Word)
  /-- RD of the register at offset `off` (R230). -/
  | rd (off : Nat)
  /-- BUS_ERROR: an access that is not admitted (R260). -/
  | busError (a : BusAccess)
deriving DecidableEq, Repr

/-- An encoded instruction, by the table's "format": a command word, or a bus access (log 8). -/
inductive Encoded
  /-- Format CMD: the word itself. -/
  | cmd (w : Word)
  /-- Formats MMIO write, MMIO read and MMIO: the access. -/
  | access (a : BusAccess)
deriving DecidableEq, Repr

/-- An access that no row of the table names: an admitted write with no effect (R73, R74). The decoder rejects it
under this name, and the step completes it (log 6). -/
inductive Unlisted
  /-- An admitted write of `v` to the read-only or unmapped offset `off`. -/
  | ignoredWrite (off : Nat) (v : Word)
deriving DecidableEq, Repr

end Sys2Proof
end

