-- ==== Sys2Proof/Machine/State.lean ====
section
/-! DEFINITION. The state of the block (10_state.md R20 to R40), what stands around it (host port, bus answer,
entropy counter, policy parameter), and reset (70_reset_and_hazards.md R280). -/

namespace Sys2Proof.Machine

/-- `cfg_state` (R21). -/
inductive CfgState
  /-- No Codec exists; the tables may be written. -/
  | unconfigured
  /-- A Codec exists; the tables are read-only. -/
  | ready
deriving DecidableEq, Repr

/-- The names of the error codes of STATUS.ERR (30_encoding.md R86). -/
inductive ErrCode
  | ok
  | configError
  | encodingRange
  | decodeFormat
  | freshRange
  | signatureMismatch
  | notConfigured
  | illegalCommand
  | configLocked
  | batchEmpty
deriving DecidableEq, Repr

/-- The architectural state of the block: the record of 10_state.md R20, field by field, "and nothing else is
architectural". -/
structure Block where
  /-- cfg_state (R21). -/
  cfgState : CfgState
  /-- KEY[r][c], 16 x 8 entries of 16 bits (R22). -/
  key : KeyTable
  /-- key_valid[r][c] (R23). -/
  keyValid : Vector (Vector Bool 8) 16
  /-- key_range_err (R24). -/
  keyRangeErr : Bool
  /-- ALPHA[j], 32 symbols of 8 bits (R25). -/
  alpha : Alphabet
  /-- alpha_valid[j] (R26). -/
  alphaValid : Vector Bool 32
  /-- alpha_range_err (R27). -/
  alphaRangeErr : Bool
  /-- ID_IN (R28). -/
  idIn : Word
  /-- COUNT_IN (R29). -/
  countIn : Word
  /-- CODE_IN[k] (R30). -/
  codeIn : Symbols
  /-- CODE_IN_LEN (R31). -/
  codeInLen : Word
  /-- ID_OUT (R32). -/
  idOut : Word
  /-- FRESH_OUT (R33). -/
  freshOut : Nibble
  /-- CODE_OUT[k] (R34). -/
  codeOut : Symbols
  /-- OUT_VALID (R35). -/
  outValid : Bool
  /-- ERR, 4 bits; the codes are R86 (R36). -/
  err : BitVec 4
  /-- CAUSE, 8 bits; the formats are R87 (R37). -/
  cause : Byte
  /-- ERR_STICKY (R38). -/
  errSticky : Bool
  /-- BATCH_NEXT_ID (R39). -/
  batchNextId : Word
  /-- BATCH_REMAINING (R40). -/
  batchRemaining : Word
deriving DecidableEq, Repr

/-- What the bus answered to the last access (R61, R62, R260). MODEL's own (log 4). -/
inductive Response
  /-- No access has been answered yet. -/
  | none
  /-- An admitted write has completed. -/
  | done
  /-- An admitted read returned `v` (R230). -/
  | data (v : Word)
  /-- The bus error response BUS_ERROR, without data (R61, R260). -/
  | busError
deriving DecidableEq, Repr

/-- What can arrive at the block from outside, in the order of issue (R68, R280). MODEL's own (log 3). -/
inductive PortEvent
  /-- A host access. -/
  | access (a : BusAccess)
  /-- The platform's reset input, asserted between accesses (R280). -/
  | reset
  /-- The reset input asserted during the access `a`: "outside this spec" (R280; log 10). -/
  | resetDuring (a : BusAccess)
deriving DecidableEq, Repr

/-- The state of the machine: the block, and the MODEL's own fields around it. -/
structure State where
  /-- The block's architectural state (R20). -/
  block : Block
  /-- MODEL's own (log 1): the parameter SIG_OVF_POLICY, which "the model takes as an argument" (R10). Nothing writes
  it (R42). -/
  policy : SigOvfPolicy
  /-- MODEL's own (log 3): the events issued and not yet taken, the next one first. -/
  port : List PortEvent
  /-- MODEL's own (log 4): the bus's answer to the last access. -/
  response : Response
  /-- MODEL's own (log 2): how many draws the entropy input has answered; the next draw is `Config.entropy draws`. -/
  draws : Nat
deriving DecidableEq, Repr

/-- The reasons a step can fault: none. The block "never stops accepting accesses after an error" (60_exceptions.md
R262): every error is a next state (R121, R250), and BUS_ERROR is a bus answer (R260). -/
inductive Fault
deriving DecidableEq, Repr

/-- The reasons a step can be refused. -/
inductive Refusal
  /-- Raised by an arm of `exec` whose instruction has no meaning yet. Safe. No arm raises it. -/
  | notModelled (mnemonic : String)
  /-- Raised by `step` when a reset is asserted during an access (R280: "outside this spec"; I22: `refuse`). Safe:
  nothing is claimed of what follows. -/
  | resetDuringAccess
deriving DecidableEq, Repr

/-- The block right after reset (R280, with the reset value of each element from its rule R21 to R40). -/
def Block.reset : Block where
  cfgState := .unconfigured
  key := Vector.replicate 16 (Vector.replicate 8 0)
  keyValid := Vector.replicate 16 (Vector.replicate 8 false)
  keyRangeErr := false
  alpha := Vector.replicate 32 0
  alphaValid := Vector.replicate 32 false
  alphaRangeErr := false
  idIn := 0
  countIn := 0
  codeIn := Vector.replicate 10 0
  codeInLen := 0
  idOut := 0
  freshOut := 0
  codeOut := Vector.replicate 10 0
  outValid := false
  err := 0
  cause := 0
  errSticky := false
  batchNextId := 0
  batchRemaining := 0

/-- The machine right after reset: the block as R280 says; the policy at R10's default (log 1); no event pending, no
answer given, no draw taken (DESIGN CHOICE: logs 2, 3 and 4). -/
def State.reset : State where
  block := Block.reset
  policy := .truncate
  port := []
  response := .none
  draws := 0

end Sys2Proof.Machine
end

