-- ==== Sys2Proof/Machine/Operands.lean ====
section
/-! DEFINITION. Operand forms: byte lanes and code words (20_memory.md R63, R65; 30_encoding.md R91), table entries, and
the freshness row (R95). -/

namespace Sys2Proof.Machine

/-- Byte lane `j` of a bus word: bits [8j+7 : 8j] (R63). -/
def lane (v : Word) (j : Fin 4) : Byte := v.extractLsb' (8 * j.val) 8

/-- The bus word with the given byte lanes, lane 0 first (R63). -/
def ofLanes (b0 b1 b2 b3 : Byte) : Word := b3 ++ b2 ++ b1 ++ b0

/-- The host byte address at which a little-endian host sees byte lane `j` of the word at `off` (R63; log 9). -/
def hostByteAddress (off : Nat) (j : Fin 4) : Nat := Config.windowBase + off + j.val

/-- CODE_X0, CODE_X1, CODE_X2 of a code, `n` = 0, 1, 2 (R91): symbol k in byte lane k mod 4 of word k div 4. -/
def codeWord (sym : Symbols) (n : Fin 3) : Word :=
  match n with
  | 0 => ofLanes sym[0] sym[1] sym[2] sym[3]
  | 1 => ofLanes sym[4] sym[5] sym[6] sym[7]
  | 2 => ofLanes sym[8] sym[9] 0 0

/-- The code after a write of `v` to its word `n` (44_register_access.md R234); bits [31:16] of word 2 are ignored. -/
def setCodeWord (sym : Symbols) (n : Fin 3) (v : Word) : Symbols :=
  match n with
  | 0 => (((sym.set 0 (lane v 0)).set 1 (lane v 1)).set 2 (lane v 2)).set 3 (lane v 3)
  | 1 => (((sym.set 4 (lane v 0)).set 5 (lane v 1)).set 6 (lane v 2)).set 7 (lane v 3)
  | 2 => (sym.set 8 (lane v 0)).set 9 (lane v 1)

/-- The row index of a freshness value (R95). -/
def rowOf (f : Nibble) : Fin 16 := ⟨f.toNat, f.isLt⟩

/-- The position in the Alphabet of a symbol index (R25). -/
def positionOf (x : SymIndex) : Fin 32 := ⟨x.toNat, x.isLt⟩

/-- A 16 x 8 register file with entry (r, c) set. -/
def setEntry {α : Type} (t : Vector (Vector α 8) 16) (r : Fin 16) (c : Fin 8) (x : α) :
    Vector (Vector α 8) 16 := t.set r.val (t[r].set c.val x)

/-- The 8 columns of a row, in order. -/
def columns : List (Fin 8) := [0, 1, 2, 3, 4, 5, 6, 7]

/-- The 16 rows of the KeyTable, in order. -/
def rows : List (Fin 16) := [0, 1, 2, 3, 4, 5, 6, 7, 8, 9, 10, 11, 12, 13, 14, 15]

end Sys2Proof.Machine
end

