-- ==== Sys2Proof/Machine/Datapath.lean ====
section
/-! DEFINITION. The datapath as pure functions of the tables: 41_generate.md R150 to R157, 43_parse.md R200 to R204. -/

namespace Sys2Proof.Machine

/-- `Nib(id, i) = id[31-4i : 28-4i]`, nibble 0 the most significant (R150). -/
def nib (id : Word) (i : Fin 8) : Nibble := id.extractLsb' (28 - 4 * i.val) 4

/-- A word from its 8 nibbles, nibble 0 the most significant (R94). -/
def ofNibbles (n : Fin 8 → Nibble) : Word :=
  n 0 ++ n 1 ++ n 2 ++ n 3 ++ n 4 ++ n 5 ++ n 6 ++ n 7

/-- The weighted nibble sum over one key-row, an exact natural number (R151). -/
def rowSigSum (row : KeyRow) (id : Word) : Nat :=
  (columns.map fun i => (nib id i).toNat * row[i].toNat).sum

/-- `SigSum(f, id)` (R151): the weights are the full key values. -/
def sigSum (key : KeyTable) (f : Nibble) (id : Word) : Nat := rowSigSum key[rowOf f] id

/-- `Sig14(f, id) = SigSum(f, id) mod 2^14` (R152). -/
def sig14 (key : KeyTable) (f : Nibble) (id : Word) : Sig := BitVec.ofNat 14 (sigSum key f id)

/-- `Mask(f, i) = KEY[f][i][3:0]` (R153). -/
def mask (key : KeyTable) (f : Nibble) (i : Fin 8) : Nibble := (key[rowOf f])[i].extractLsb' 0 4

/-- `Obf(f, x)`: each nibble XOR the mask of its column (R154). No wrap path (90_conflicts.md C3). -/
def obf (key : KeyTable) (f : Nibble) (x : Word) : Word :=
  ofNibbles fun i => nib x i ^^^ mask key f i

/-- `Pack(s, f, o) = s ++ f ++ o` (R155). -/
def pack (s : Sig) (f : Nibble) (o : Word) : Payload := s ++ f ++ o

/-- `SymIdx(p, k) = p[49-5k : 45-5k]` (R156). -/
def symIdx (p : Payload) (k : Fin 10) : SymIndex := p.extractLsb' (45 - 5 * k.val) 5

/-- `Encode(p)[k] = ALPHA[SymIdx(p, k)]` (R156). -/
def encodeSymbols (alpha : Alphabet) (p : Payload) : Symbols :=
  Vector.ofFn fun k => alpha[positionOf (symIdx p k)]

/-- `GenCode(id, f)` (R157). -/
def genCode (key : KeyTable) (alpha : Alphabet) (id : Word) (f : Nibble) : Symbols :=
  encodeSymbols alpha (pack (sig14 key f id) f (obf key f id))

/-- `SymIndex(s)` (R200): the index of a symbol, none when no ALPHA entry equals it. Of several equal entries, which a
committed Alphabet never has (R135), the lowest is taken. -/
def symIndex (alpha : Alphabet) (s : Byte) : Option SymIndex :=
  ((List.finRange 32).find? fun j => alpha[j] == s).map fun j => BitVec.ofNat 5 j.val

/-- `Unpack(idx)`: the 10 indices concatenated, index 0 in bits [49:45] (R201). -/
def unpack (idx : Fin 10 → SymIndex) : Payload :=
  idx 0 ++ idx 1 ++ idx 2 ++ idx 3 ++ idx 4 ++ idx 5 ++ idx 6 ++ idx 7 ++ idx 8 ++ idx 9

/-- `SigBits(p) = p[49:36]` (R202). -/
def sigBits (p : Payload) : Sig := p.extractLsb' 36 14

/-- `FreshBits(p) = p[35:32]` (R202). -/
def freshBits (p : Payload) : Nibble := p.extractLsb' 32 4

/-- `ObfBits(p) = p[31:0]` (R202). -/
def obfBits (p : Payload) : Word := p.extractLsb' 0 32

/-- The recovered identifier `Obf(FreshBits(p), ObfBits(p))` (R202). -/
def recoveredId (key : KeyTable) (p : Payload) : Word := obf key (freshBits p) (obfBits p)

/-- The signature check (R203): the full sum against the field, as exact naturals. -/
def signaturePasses (key : KeyTable) (p : Payload) : Bool :=
  sigSum key (freshBits p) (recoveredId key p) == (sigBits p).toNat

/-- The lowest position whose symbol is in no ALPHA entry (R204, 92_eei_decisions.md D31). -/
def firstUnknown (alpha : Alphabet) (sym : Symbols) : Option (Fin 10) :=
  (List.finRange 10).find? fun k => (symIndex alpha sym[k]).isNone

/-- The checks of the parse function from the payload on: the freshness bound, then the signature (R204). The bound is
never exceeded (R208; log 12). -/
def parsePayload (key : KeyTable) (p : Payload) : Except (ErrCode × Byte) (Word × Nibble) :=
  if 15 < (freshBits p).toNat then .error (.freshRange, 0)
  else if signaturePasses key p then .ok (recoveredId key p, freshBits p)
  else .error (.signatureMismatch, 0)

/-- The payload that 10 symbols carry (R201), an unknown symbol read as index 0; used when every symbol is known. -/
def payloadOf (alpha : Alphabet) (sym : Symbols) : Payload :=
  unpack fun k => (symIndex alpha sym[k]).getD 0

/-- CAUSE of DECODE_FORMAT when the first unknown symbol stands at position `k`: 0x02 + 16 k (R87, R204). -/
def unknownSymbolCause (k : Fin 10) : Byte := BitVec.ofNat 8 (0x02 + 16 * k.val)

/-- `ParseCode(len, sym)` (R204): length, then symbols in ascending order, then freshness, then signature. -/
def parseCode (key : KeyTable) (alpha : Alphabet) (len : Word) (sym : Symbols) :
    Except (ErrCode × Byte) (Word × Nibble) :=
  if len ≠ 10 then .error (.decodeFormat, 0x01)
  else
    match firstUnknown alpha sym with
    | some k => .error (.decodeFormat, unknownSymbolCause k)
    | none => parsePayload key (payloadOf alpha sym)

end Sys2Proof.Machine
end

