-- ==== Sys2Proof/Decode.lean ====
section
/-! DEFINITION. Command words and bus accesses to instructions and back: 20_memory.md R61; 30_encoding.md R80 to R84,
R89, R90, R96. -/

namespace Sys2Proof

/-! ### The command word -/

/-- OP, bits [3:0] of a command word (R81). -/
def opField (w : Word) : BitVec 4 := w.extractLsb' 0 4

/-- F, bit [4] of a command word (R81). -/
def forceField (w : Word) : Bool := w.getLsbD 4

/-- FRESH, bits [11:8] of a command word (R81). -/
def freshField (w : Word) : Nibble := w.extractLsb' 8 4

/-- The reserved bits [7:5] and [31:12] are 0 (R81). -/
def reservedClear (w : Word) : Bool := w.extractLsb' 12 20 == 0 && w.extractLsb' 5 3 == 0

/-- `legal(w)` (R83). -/
def legal (w : Word) : Bool :=
  reservedClear w &&
    ((([0x0, 0x1, 0x2, 0x4, 0x5] : List (BitVec 4)).contains (opField w)
        && !forceField w && freshField w == 0)
      || (([0x3, 0x6] : List (BitVec 4)).contains (opField w)
        && (forceField w || freshField w == 0)))

/-- `sel` of a command word (R122). -/
def selOf (w : Word) : FreshSel := if forceField w then .forced (freshField w) else .random

/-- `decode(w)` (R82, R84): total, every word to exactly one command. -/
def decodeCmd (w : Word) : Cmd :=
  if legal w then
    if opField w = 0x0 then .nop
    else if opField w = 0x1 then .cfgClear
    else if opField w = 0x2 then .cfgCommit
    else if opField w = 0x3 then .generate (selOf w)
    else if opField w = 0x4 then .parse
    else if opField w = 0x5 then .batchStart
    else .batchNext (selOf w)
  else .illegal

/-- Which of the table's three rows of illegal words a word belongs to, by its OP (R82, R126). -/
def illegalRow (w : Word) : Instr :=
  if opField w = 0x7 then .illegalOp7 (w.extractLsb' 4 28)
  else if w.getLsbD 3 then .illegalOp8F (w.extractLsb' 4 28) (w.extractLsb' 0 3)
  else .illegalOther w

/-- The row of the table (format CMD) that a command word belongs to. -/
def cmdRow (w : Word) : Instr :=
  match decodeCmd w with
  | .nop => .nop
  | .cfgClear => .cfgClear
  | .cfgCommit => .cfgCommit
  | .generate .random => .gen
  | .generate (.forced f) => .genF f
  | .parse => .parse
  | .batchStart => .batchStart
  | .batchNext .random => .batchNext
  | .batchNext (.forced f) => .batchNextF f
  | .illegal => illegalRow w

/-! ### Bus accesses -/

/-- `admitted(off, n)` (R61). -/
def admitted (off n : Nat) : Bool := n == 4 && off % 4 == 0 && decide (off ≤ 0x3FC)

/-- Admission of an access (R61). -/
def BusAccess.isAdmitted : BusAccess → Bool
  | .read off n => admitted off n
  | .write off n _ => admitted off n

/-- The offset of KEY[r][c] (R89). -/
def keyOffset (r : Fin 16) (c : Fin 8) : Nat := 0x100 + 32 * r.val + 4 * c.val

/-- The offset of ALPHA[j] (R90). -/
def alphaOffset (j : Fin 32) : Nat := 0x300 + 4 * j.val

/-- The KEY window (R89). -/
abbrev inKeyWindow (off : Nat) : Prop := 0x100 ≤ off ∧ off ≤ 0x2FC

/-- The ALPHA window (R90). -/
abbrev inAlphaWindow (off : Nat) : Prop := 0x300 ≤ off ∧ off ≤ 0x37C

/-- `r = (off - 0x100) div 32` (R89). -/
def keyRowOf (off : Nat) (h : inKeyWindow off) : Fin 16 := ⟨(off - 0x100) / 32, by omega⟩

/-- `c = ((off - 0x100) mod 32) div 4` (R89). -/
def keyColOf (off : Nat) : Fin 8 := ⟨(off - 0x100) % 32 / 4, by omega⟩

/-- `j = (off - 0x300) div 4` (R90). -/
def alphaIndexOf (off : Nat) (h : inAlphaWindow off) : Fin 32 := ⟨(off - 0x300) / 4, by omega⟩

/-- The write action of the register at an admitted offset (R62, R80). A write to a read-only register or to an
unmapped offset is rejected as `ignoredWrite` (R73, R74; log 6). -/
def decodeWrite (off : Nat) (v : Word) : Except Unlisted Instr :=
  if off = 0x000 then .ok (.wrCmd v)
  else if off = 0x004 then .ok (.wrStatus v)
  else if off = 0x008 then .ok (.wrIdIn v)
  else if off = 0x00C then .ok (.wrCountIn v)
  else if off = 0x010 then .ok (.wrCodeInLen v)
  else if off = 0x014 then .ok (.wrCodeIn0 v)
  else if off = 0x018 then .ok (.wrCodeIn1 v)
  else if off = 0x01C then .ok (.wrCodeIn2 v)
  else if h : inKeyWindow off then .ok (.wrKey (keyRowOf off h) (keyColOf off) v)
  else if h : inAlphaWindow off then .ok (.wrAlpha (alphaIndexOf off h) v)
  else .error (.ignoredWrite off v)

/-- The instruction of a bus access (R61, R62). -/
def decodeAccess : BusAccess → Except Unlisted Instr
  | .read off n => if admitted off n then .ok (.rd off) else .ok (.busError (.read off n))
  | .write off n v => if admitted off n then decodeWrite off v else .ok (.busError (.write off n v))

/-- The decoder: total on every command word and every access (R84, R61). -/
def decode : Encoded → Except Unlisted Instr
  | .cmd w => .ok (cmdRow w)
  | .access a => decodeAccess a

/-! ### The encoder -/

/-- The encoding of an instruction: R82, R96 for the command words; R80, R89, R90, R96 for the accesses. -/
def encode : Instr → Encoded
  | .nop => .cmd 0x00000000
  | .cfgClear => .cmd 0x00000001
  | .cfgCommit => .cmd 0x00000002
  | .gen => .cmd 0x00000003
  | .genF f => .cmd (0x00000013 + 0x100 * f.setWidth 32)
  | .parse => .cmd 0x00000004
  | .batchStart => .cmd 0x00000005
  | .batchNext => .cmd 0x00000006
  | .batchNextF f => .cmd (0x00000016 + 0x100 * f.setWidth 32)
  | .illegalOp7 rest => .cmd (rest ++ 0x7#4)
  | .illegalOp8F rest opLow => .cmd (rest ++ (1#1 ++ opLow))
  | .illegalOther w => .cmd w
  | .wrKey r c v => .access (.write (keyOffset r c) 4 v)
  | .wrAlpha j v => .access (.write (alphaOffset j) 4 v)
  | .wrIdIn v => .access (.write 0x008 4 v)
  | .wrCountIn v => .access (.write 0x00C 4 v)
  | .wrCodeInLen v => .access (.write 0x010 4 v)
  | .wrCodeIn0 v => .access (.write 0x014 4 v)
  | .wrCodeIn1 v => .access (.write 0x018 4 v)
  | .wrCodeIn2 v => .access (.write 0x01C 4 v)
  | .wrStatus v => .access (.write 0x004 4 v)
  | .wrCmd w => .access (.write 0x000 4 w)
  | .rd off => .access (.read off 4)
  | .busError a => .access a

/-- The bus access by which the host issues an encoded instruction: a command word travels in a write to CMD (R81,
R96). -/
def Encoded.toAccess : Encoded → BusAccess
  | .cmd w => .write 0x000 4 w
  | .access a => a

/-! ### The host's probe words (log 7) -/

/-- A row's bits as spec/opcode_table.json numbers them: 32 bits are a command word (the table's format CMD); any other
number of bits is a bus write, offset in bits [9:0] (the rows' mask 0x3FF), written value in bits [47:16]. -/
def codeOfTableWord (nbits w : Nat) : Encoded :=
  if nbits = 32 then .cmd (BitVec.ofNat 32 w)
  else .access (.write (w % 1024) 4 (BitVec.ofNat 32 (w / 65536)))

/-- The instruction the decoder reads from an instruction whose bits are `w`; none where it refuses. -/
def decodeTableWord (nbits w : Nat) : Option Instr :=
  match decode (codeOfTableWord nbits w) with
  | .ok i => some i
  | .error _ => none

end Sys2Proof
end

