-- ==== Sys2Proof/Machine/Flags.lean ====
section
/-! DEFINITION. The STATUS and PARAMS words (30_encoding.md R85, R86, R88) and the configuration check that computes
CAUSE (40_configuration.md R132 to R134). -/

namespace Sys2Proof.Machine

/-- The numbers of the error codes (R86). -/
def ErrCode.code : ErrCode → BitVec 4
  | .ok => 0
  | .configError => 1
  | .encodingRange => 2
  | .decodeFormat => 3
  | .freshRange => 4
  | .signatureMismatch => 5
  | .notConfigured => 6
  | .illegalCommand => 7
  | .configLocked => 8
  | .batchEmpty => 9

/-- STATUS.READY: a view of cfg_state (R43). -/
def readyFlag (b : Block) : Bool := b.cfgState == .ready

/-- STATUS.BATCH_ACTIVE: a view of BATCH_REMAINING (R43). -/
def batchActive (b : Block) : Bool := b.batchRemaining != 0

/-- STATUS (R85): CAUSE ++ ERR ++ ERR_STICKY ++ BATCH_ACTIVE ++ OUT_VALID ++ READY, zero-extended. -/
def statusWord (b : Block) : Word :=
  (b.cause ++ b.err ++ BitVec.ofBool b.errSticky ++ BitVec.ofBool (batchActive b)
    ++ BitVec.ofBool b.outValid ++ BitVec.ofBool (readyFlag b)).setWidth 32

/-- PARAMS[0] of a policy (R88). -/
def policyBit : SigOvfPolicy → Bool
  | .truncate => false
  | .reject => true

/-- PARAMS (R88): SYM_W in [23:16], KEY_W in [15:8], SIG_OVF_POLICY in [0]. -/
def paramsWord (p : SigOvfPolicy) : Word :=
  0#8 ++ BitVec.ofNat 8 Config.symWidth ++ BitVec.ofNat 8 Config.keyWidth ++ 0#7 ++ BitVec.ofBool (policyBit p)

/-- KEY_MISSING: some KEY entry has not been written (R132). -/
def keyMissing (b : Block) : Bool := rows.any fun r => columns.any fun c => !(b.keyValid[r])[c]

/-- ALPHA_MISSING: some ALPHA entry has not been written (R132). -/
def alphaMissing (b : Block) : Bool := (List.finRange 32).any fun j => !b.alphaValid[j]

/-- ALPHA_DUP: two of the 32 stored symbols are equal, written or not (R132, R133). -/
def alphaDup (b : Block) : Bool :=
  (List.finRange 32).any fun j => (List.finRange 32).any fun k => decide (j < k) && b.alpha[j] == b.alpha[k]

/-- The sum of one key-row's entries, exact (R134). -/
def rowSum (row : KeyRow) : Nat := (columns.map fun c => row[c].toNat).sum

/-- `SigCapacityExceeded()` (R134). -/
def sigCapacityExceeded (key : KeyTable) : Bool :=
  rows.any fun r => decide (15 * rowSum key[r] > Config.sigCapacity)

/-- SIG_CAPACITY: checked under REJECT only (R132). -/
def capacityCause (p : SigOvfPolicy) (b : Block) : Bool :=
  decide (p = .reject) && sigCapacityExceeded b.key

/-- `ConfigCheck()` (R132): the CAUSE byte with every failing check. -/
def configCheck (p : SigOvfPolicy) (b : Block) : Byte :=
  0#2 ++ BitVec.ofBool b.alphaRangeErr ++ BitVec.ofBool b.keyRangeErr ++ BitVec.ofBool (capacityCause p b)
    ++ BitVec.ofBool (alphaDup b) ++ BitVec.ofBool (alphaMissing b) ++ BitVec.ofBool (keyMissing b)

end Sys2Proof.Machine
end

