-- ==== Sys2Proof/Machine/Ops.lean ====
section
/-! DEFINITION. What every access and every command shares: the prologue and the error ending (40_configuration.md R120,
R121), the register read (44_register_access.md R230), the draw (60_exceptions.md R266), reset (R280), and the end of
an access on the bus. -/

namespace Sys2Proof.Machine

/-- `Prologue()` (R120): results zeroed, ERR and CAUSE at OK. ERR_STICKY is not touched. -/
def prologue (b : Block) : Block :=
  { b with
    outValid := false, idOut := 0, freshOut := 0, codeOut := Vector.replicate 10 0,
    err := ErrCode.ok.code, cause := 0 }

/-- `raise E(cause)` (R121), the ONE way an error is reported (R250): ERR, CAUSE and ERR_STICKY are written and nothing
else. There is no trap entry and no return (R262, R263). A rejected table write makes the same three writes (R127,
R129). -/
def raise (e : ErrCode) (cause : Byte) (b : Block) : Block :=
  { b with err := e.code, cause := cause, errSticky := true }

/-- The state with its block changed by `f`. -/
def onBlock (f : Block → Block) (s : State) : State := { s with block := f s.block }

/-- `raise` on the whole state. -/
def raiseIn (e : ErrCode) (cause : Byte) (s : State) : State := onBlock (raise e cause) s

/-- The end of an access: the bus answers `r` and the access leaves the port (R66, R68; logs 3 and 4). -/
def finish (r : Response) (s : State) : State := { s with response := r, port := s.port.tail }

/-- A write to CMD as one transition (R66, R122): the prologue, the command's body, the end of the access. -/
def runCommand (body : State → State) (s : State) : State :=
  finish .done (body (onBlock prologue s))

/-- An admitted write that is no command (R62): its action on the block, the end of the access. -/
def runWrite (action : Block → Block) (s : State) : State := finish .done (onBlock action s)

/-- A write action on the tables: refused with CONFIG_LOCKED while READY (R127, R129, R258). -/
def unlessLocked (action : Block → Block) (b : Block) : Block :=
  if b.cfgState = .ready then raise .configLocked 0 b else action b

/-- A command body that needs a Codec: NOT_CONFIGURED while UNCONFIGURED (R256), checked first (R261). -/
def whenConfigured (body : State → State) (s : State) : State :=
  if s.block.cfgState = .ready then body s else raiseIn .notConfigured 0 s

/-- `draw_fresh()` (R266): one free value, and the counter moved on so that the next draw is another one (log 2). -/
def drawFresh (s : State) : Nibble × State := (Config.entropy s.draws, { s with draws := s.draws + 1 })

/-- `FreshSel(sel)` (R159): a forced value draws nothing. -/
def freshSel (sel : FreshSel) (s : State) : Nibble × State :=
  match sel with
  | .forced f => (f, s)
  | .random => drawFresh s

/-- The result writes of GENERATE and BATCH_NEXT (R158, R181). -/
def writeCode (code : Symbols) (f : Nibble) (id : Word) (b : Block) : Block :=
  { b with codeOut := code, freshOut := f, idOut := id, outValid := true }

/-- `ReadReg(off)` (R230): the value an admitted read returns; unmapped offsets read 0 (R73). -/
def readReg (p : SigOvfPolicy) (b : Block) (off : Nat) : Word :=
  if off = 0x000 then 0
  else if off = 0x004 then statusWord b
  else if off = 0x008 then b.idIn
  else if off = 0x00C then b.countIn
  else if off = 0x010 then b.codeInLen
  else if off = 0x014 then codeWord b.codeIn 0
  else if off = 0x018 then codeWord b.codeIn 1
  else if off = 0x01C then codeWord b.codeIn 2
  else if off = 0x020 then b.idOut
  else if off = 0x024 then b.freshOut.setWidth 32
  else if off = 0x028 then codeWord b.codeOut 0
  else if off = 0x02C then codeWord b.codeOut 1
  else if off = 0x030 then codeWord b.codeOut 2
  else if off = 0x034 then b.batchNextId
  else if off = 0x038 then b.batchRemaining
  else if off = 0x03C then paramsWord p
  else if h : inKeyWindow off then ((b.key[keyRowOf off h])[keyColOf off]).setWidth 32
  else if h : inAlphaWindow off then (b.alpha[alphaIndexOf off h]).setWidth 32
  else 0

/-- An admitted write to a read-only or unmapped offset: it completes, and changes nothing (R73, R74; log 6). -/
def ignoreWrite (u : Unlisted) (s : State) : State :=
  match u with
  | .ignoredWrite _ _ => finish .done s

/-- Reset between accesses (R280): every state element to its reset value. The entropy input is not reached (R282), the
policy is fixed (R10), and the accesses still to come stay in the port (log 10). -/
def takeReset (s : State) : State := { s with block := Block.reset, port := s.port.tail }

/-- No event is pending: the block acts only on an access (R44), so it stays as it is (log 3). -/
def idle (s : State) : State := s

end Sys2Proof.Machine
end

