-- ==== Sys2Proof/Machine/Generate.lean ====
section
/-! DEFINITION. The GENERATE command: 41_generate.md R158, R159. -/

namespace Sys2Proof.Machine

/-- The code of `id` under the block's tables at freshness `f`, written to the result registers (R157, R158). -/
def emitCode (id : Word) (f : Nibble) (b : Block) : Block :=
  writeCode (genCode b.key b.alpha id f) f id b

/-- `Exec_GENERATE(sel)` (R158): the draw, if any, comes after the NOT_CONFIGURED check (R256). -/
def generateBody (sel : FreshSel) : State → State :=
  whenConfigured fun s =>
    let fresh := freshSel sel s
    onBlock (emitCode s.block.idIn fresh.1) fresh.2

/-- GEN (R158): the freshness is drawn. -/
def execGen (s : State) : Host.Outcome State Fault Refusal := .next (runCommand (generateBody .random) s)

/-- GEN.F f (R158): the freshness is forced. -/
def execGenF (f : Nibble) (s : State) : Host.Outcome State Fault Refusal :=
  .next (runCommand (generateBody (.forced f)) s)

end Sys2Proof.Machine
end

