-- ==== Sys2Proof/Machine/Batch.lean ====
section
/-! DEFINITION. Batch generation: 42_batch.md R180, R181. -/

namespace Sys2Proof.Machine

/-- The last identifier of the batch, ID_IN + COUNT_IN - 1, exact, does not fit in 32 bits (R180, R252). -/
abbrev batchOverflows (b : Block) : Prop :=
  b.countIn ≠ 0 ∧ b.idIn.toNat + b.countIn.toNat - 1 > Config.maxIdentifier

/-- What a successful BATCH_START writes (R180). -/
def loadBatch (b : Block) : Block := { b with batchNextId := b.idIn, batchRemaining := b.countIn }

/-- `Exec_BATCH_START()` (R180). -/
def batchStartBody : State → State :=
  whenConfigured fun s =>
    if batchOverflows s.block then raiseIn .encodingRange 0 s else onBlock loadBatch s

/-- The advance of the batch: the next identifier modulo 2^32, one code fewer to come (R181). -/
def advanceBatch (b : Block) : Block :=
  { b with batchNextId := b.batchNextId + 1, batchRemaining := b.batchRemaining - 1 }

/-- `Exec_BATCH_NEXT(sel)` (R181): the draw, if any, comes after both checks (R266). -/
def batchNextBody (sel : FreshSel) : State → State :=
  whenConfigured fun s =>
    if s.block.batchRemaining = 0 then raiseIn .batchEmpty 0 s
    else
      let fresh := freshSel sel s
      onBlock (fun b => advanceBatch (emitCode b.batchNextId fresh.1 b)) fresh.2

/-- BATCH.START (R180). -/
def execBatchStart (s : State) : Host.Outcome State Fault Refusal := .next (runCommand batchStartBody s)

/-- BATCH.NEXT (R181): the freshness is drawn. -/
def execBatchNext (s : State) : Host.Outcome State Fault Refusal := .next (runCommand (batchNextBody .random) s)

/-- BATCH.NEXT.F f (R181): the freshness is forced. -/
def execBatchNextF (f : Nibble) (s : State) : Host.Outcome State Fault Refusal :=
  .next (runCommand (batchNextBody (.forced f)) s)

end Sys2Proof.Machine
end

