-- ==== Sys2Proof/Machine/Configuration.lean ====
section
/-! DEFINITION. NOP, the illegal words, CFG.CLEAR, CFG.COMMIT and the table writes: 40_configuration.md R125 to R133. -/

namespace Sys2Proof.Machine

/-- `Exec_NOP()`: nothing beyond the prologue (R125). -/
def nopBody (s : State) : State := s

/-- The body of every illegal word: `raise ILLEGAL_COMMAND(0)` (R126, R257). -/
def illegalBody (s : State) : State := raiseIn .illegalCommand 0 s

/-- What CFG_CLEAR writes (R130): the tables, their valid bits and range flags, and the batch registers. -/
def clearConfiguration (b : Block) : Block :=
  { b with
    cfgState := .unconfigured,
    key := Vector.replicate 16 (Vector.replicate 8 0),
    keyValid := Vector.replicate 16 (Vector.replicate 8 false),
    keyRangeErr := false,
    alpha := Vector.replicate 32 0,
    alphaValid := Vector.replicate 32 false,
    alphaRangeErr := false,
    batchNextId := 0,
    batchRemaining := 0 }

/-- `Exec_CFG_CLEAR()` (R130): it runs in either configuration state. -/
def cfgClearBody (s : State) : State := onBlock clearConfiguration s

/-- `Exec_CFG_COMMIT()` (R131): CONFIG_LOCKED, then CONFIG_ERROR with every failing check, then READY. -/
def cfgCommitBody (s : State) : State :=
  if s.block.cfgState = .ready then raiseIn .configLocked 0 s
  else if configCheck s.policy s.block ≠ 0 then
    raiseIn .configError (configCheck s.policy s.block) s
  else onBlock (fun b => { b with cfgState := .ready }) s

/-- The accepted KEY entry write (R127): the low 16 bits, the valid bit, and the range flag for a larger value. -/
def storeKey (r : Fin 16) (c : Fin 8) (v : Word) (b : Block) : Block :=
  { b with
    key := setEntry b.key r c (v.extractLsb' 0 16),
    keyValid := setEntry b.keyValid r c true,
    keyRangeErr := b.keyRangeErr || v.extractLsb' 16 16 != 0 }

/-- The accepted ALPHA entry write (R129): the low 8 bits, the valid bit, and the range flag for a larger value. -/
def storeAlpha (j : Fin 32) (v : Word) (b : Block) : Block :=
  { b with
    alpha := b.alpha.set j.val (v.extractLsb' 0 8),
    alphaValid := b.alphaValid.set j.val true,
    alphaRangeErr := b.alphaRangeErr || v.extractLsb' 8 24 != 0 }

/-- NOP (R125). -/
def execNop (s : State) : Host.Outcome State Fault Refusal := .next (runCommand nopBody s)

/-- CFG.CLEAR (R130). -/
def execCfgClear (s : State) : Host.Outcome State Fault Refusal := .next (runCommand cfgClearBody s)

/-- CFG.COMMIT (R131). -/
def execCfgCommit (s : State) : Host.Outcome State Fault Refusal := .next (runCommand cfgCommitBody s)

/-- ILLEGAL (reserved OP 0x7) (R126): the other bits of the word do not matter. -/
def execIllegalOp7 (_rest : BitVec 28) (s : State) : Host.Outcome State Fault Refusal :=
  .next (runCommand illegalBody s)

/-- ILLEGAL (reserved OP 0x8-0xF) (R126): the other bits of the word do not matter. -/
def execIllegalOp8F (_rest : BitVec 28) (_opLow : BitVec 3) (s : State) : Host.Outcome State Fault Refusal :=
  .next (runCommand illegalBody s)

/-- ILLEGAL (any other word) (R126). -/
def execIllegalOther (_w : Word) (s : State) : Host.Outcome State Fault Refusal :=
  .next (runCommand illegalBody s)

/-- WR KEY[r][c], v (R127): not a command, so the prologue does not run. -/
def execWrKey (r : Fin 16) (c : Fin 8) (v : Word) (s : State) : Host.Outcome State Fault Refusal :=
  .next (runWrite (unlessLocked (storeKey r c v)) s)

/-- WR ALPHA[j], v (R129): not a command, so the prologue does not run. -/
def execWrAlpha (j : Fin 32) (v : Word) (s : State) : Host.Outcome State Fault Refusal :=
  .next (runWrite (unlessLocked (storeAlpha j v)) s)

end Sys2Proof.Machine
end

