-- ==== Sys2Proof/Machine/Parse.lean ====
section
/-! DEFINITION. The PARSE command: 43_parse.md R205. -/

namespace Sys2Proof.Machine

/-- What a successful PARSE writes (R205); CODE_OUT stays as the prologue left it. -/
def writeParsed (id : Word) (f : Nibble) (b : Block) : Block :=
  { b with idOut := id, freshOut := f, outValid := true }

/-- `Exec_PARSE()` (R205). -/
def parseBody : State → State :=
  whenConfigured fun s =>
    match parseCode s.block.key s.block.alpha s.block.codeInLen s.block.codeIn with
    | .error (e, c) => raiseIn e c s
    | .ok (id, f) => onBlock (writeParsed id f) s

/-- PARSE (R205). -/
def execParse (s : State) : Host.Outcome State Fault Refusal := .next (runCommand parseBody s)

end Sys2Proof.Machine
end

