-- ==== Sys2Proof/Machine/Command.lean ====
section
/-! DEFINITION. The write to CMD, which dispatches on the command word: 40_configuration.md R122. -/

namespace Sys2Proof.Machine

/-- The dispatch of R122, less the prologue. -/
def commandBody : Cmd → State → State
  | .nop => nopBody
  | .cfgClear => cfgClearBody
  | .cfgCommit => cfgCommitBody
  | .generate sel => generateBody sel
  | .parse => parseBody
  | .batchStart => batchStartBody
  | .batchNext sel => batchNextBody sel
  | .illegal => illegalBody

/-- WR CMD, w (R122). -/
def execWrCmd (w : Word) (s : State) : Host.Outcome State Fault Refusal :=
  .next (runCommand (commandBody (decodeCmd w)) s)

end Sys2Proof.Machine
end

