-- ==== Sys2Proof/Machine/Registers.lean ====
section
/-! DEFINITION. Register reads, operand writes, the STATUS write and BUS_ERROR: 44_register_access.md R230 to R236,
60_exceptions.md R260. -/

namespace Sys2Proof.Machine

/-- The write-1-to-clear of ERR_STICKY, bit 3; every other bit is ignored (R235). -/
def clearSticky (v : Word) (b : Block) : Block :=
  if v.getLsbD 3 then { b with errSticky := false } else b

/-- WR ID_IN, v (R231). -/
def execWrIdIn (v : Word) (s : State) : Host.Outcome State Fault Refusal :=
  .next (runWrite (fun b => { b with idIn := v }) s)

/-- WR COUNT_IN, v (R232). -/
def execWrCountIn (v : Word) (s : State) : Host.Outcome State Fault Refusal :=
  .next (runWrite (fun b => { b with countIn := v }) s)

/-- WR CODE_IN_LEN, v (R233): all 32 bits. -/
def execWrCodeInLen (v : Word) (s : State) : Host.Outcome State Fault Refusal :=
  .next (runWrite (fun b => { b with codeInLen := v }) s)

/-- The write of word `n` of CODE_IN (R234). -/
def storeCodeIn (n : Fin 3) (v : Word) (b : Block) : Block := { b with codeIn := setCodeWord b.codeIn n v }

/-- WR CODE_IN0, v (R234). -/
def execWrCodeIn0 (v : Word) (s : State) : Host.Outcome State Fault Refusal := .next (runWrite (storeCodeIn 0 v) s)

/-- WR CODE_IN1, v (R234). -/
def execWrCodeIn1 (v : Word) (s : State) : Host.Outcome State Fault Refusal := .next (runWrite (storeCodeIn 1 v) s)

/-- WR CODE_IN2, v (R234). -/
def execWrCodeIn2 (v : Word) (s : State) : Host.Outcome State Fault Refusal := .next (runWrite (storeCodeIn 2 v) s)

/-- WR STATUS, v (R235). -/
def execWrStatus (v : Word) (s : State) : Host.Outcome State Fault Refusal := .next (runWrite (clearSticky v) s)

/-- RD of the register at `off` (R230, R236, R238): the bus returns its value, and no state of the block changes. -/
def execRd (off : Nat) (s : State) : Host.Outcome State Fault Refusal :=
  .next (finish (.data (readReg s.policy s.block off)) s)

/-- BUS_ERROR (R260): the bus answers with the error response, and no state of the block changes. -/
def execBusError (_a : BusAccess) (s : State) : Host.Outcome State Fault Refusal := .next (finish .busError s)

end Sys2Proof.Machine
end

