-- ==== Sys2Proof/Machine/Dispatch.lean ====
section
/-! DEFINITION. The meaning of every instruction, one arm for each row of spec/opcode_table.json. -/

namespace Sys2Proof.Machine

def exec (i : Instr) (s : State) : Host.Outcome State Fault Refusal :=
  match i with
  | .nop => Sys2Proof.Machine.execNop s
  | .cfgClear => Sys2Proof.Machine.execCfgClear s
  | .cfgCommit => Sys2Proof.Machine.execCfgCommit s
  | .gen => Sys2Proof.Machine.execGen s
  | .genF f => Sys2Proof.Machine.execGenF f s
  | .parse => Sys2Proof.Machine.execParse s
  | .batchStart => Sys2Proof.Machine.execBatchStart s
  | .batchNext => Sys2Proof.Machine.execBatchNext s
  | .batchNextF f => Sys2Proof.Machine.execBatchNextF f s
  | .illegalOp7 rest => Sys2Proof.Machine.execIllegalOp7 rest s
  | .illegalOp8F rest opLow => Sys2Proof.Machine.execIllegalOp8F rest opLow s
  | .illegalOther w => Sys2Proof.Machine.execIllegalOther w s
  | .wrKey r c v => Sys2Proof.Machine.execWrKey r c v s
  | .wrAlpha j v => Sys2Proof.Machine.execWrAlpha j v s
  | .wrIdIn v => Sys2Proof.Machine.execWrIdIn v s
  | .wrCountIn v => Sys2Proof.Machine.execWrCountIn v s
  | .wrCodeInLen v => Sys2Proof.Machine.execWrCodeInLen v s
  | .wrCodeIn0 v => Sys2Proof.Machine.execWrCodeIn0 v s
  | .wrCodeIn1 v => Sys2Proof.Machine.execWrCodeIn1 v s
  | .wrCodeIn2 v => Sys2Proof.Machine.execWrCodeIn2 v s
  | .wrStatus v => Sys2Proof.Machine.execWrStatus v s
  | .wrCmd w => Sys2Proof.Machine.execWrCmd w s
  | .rd off => Sys2Proof.Machine.execRd off s
  | .busError a => Sys2Proof.Machine.execBusError a s

end Sys2Proof.Machine
end

