-- ==== Sys2Proof/Machine/Fetch.lean ====
section
/-! DEFINITION. What the next step takes from the host port: 20_memory.md R68; 70_reset_and_hazards.md R280. -/

namespace Sys2Proof.Machine

/-- What stands at the head of the port, decoded. -/
inductive Fetched
  /-- No event is pending. -/
  | nothing
  /-- An access that a row of the table names. -/
  | instr (i : Instr)
  /-- An admitted write that no row names (R73, R74). -/
  | unlisted (u : Unlisted)
  /-- Reset between accesses. -/
  | reset
  /-- Reset during an access. -/
  | resetDuring
deriving DecidableEq, Repr

/-- An access, decoded. -/
def fetchAccess (a : BusAccess) : Fetched :=
  match decode (.access a) with
  | .ok i => .instr i
  | .error u => .unlisted u

/-- The event at the head of the port (R68: accesses take effect in the order the host issues them). -/
def fetch (s : State) : Fetched :=
  match s.port with
  | [] => .nothing
  | .access a :: _ => fetchAccess a
  | .reset :: _ => .reset
  | .resetDuring _ :: _ => .resetDuring

end Sys2Proof.Machine
end

