-- ==== Sys2Proof/Machine/Step.lean ====
section
/-! DEFINITION. One step: one event of the host port, taken whole (20_memory.md R66, R68). -/

namespace Sys2Proof.Machine

/-- One step. An access runs the instruction it decodes to; `exec` itself ends the access and takes it off the port. -/
def step (s : State) : Host.Outcome State Fault Refusal :=
  match fetch s with
  | .nothing => .next (idle s)
  | .instr i => exec i s
  | .unlisted u => .next (ignoreWrite u s)
  | .reset => .next (takeReset s)
  | .resetDuring => .refused .resetDuringAccess

/-- `s` with the access of the instruction whose bits are `w` put at the head of the port, so that the next step runs it
(logs 3 and 7). -/
def State.withFetchWord (s : State) (nbits w : Nat) : State :=
  { s with port := .access (codeOfTableWord nbits w).toAccess :: s.port }

end Sys2Proof.Machine
end

