-- ==== Sys2Proof/Machine/Assembler.lean ====
section
/-! DEFINITION. What the host issues: assembly lines and pseudo-instructions (30_encoding.md R96, R97). -/

namespace Sys2Proof.Machine

/-- One assembly line is one host access (R96): the access that carries the instruction. -/
def accessOf (i : Instr) : BusAccess := (encode i).toAccess

/-- `s` after the host has issued a list of instructions, behind what is already pending (R68). -/
def State.issue (s : State) (is : List Instr) : State :=
  { s with port := s.port ++ is.map fun i => .access (accessOf i) }

/-- The first 10 symbols of a string, missing symbols 0 (R97). -/
def firstSymbols (str : List Byte) : Symbols := Vector.ofFn fun k => str.getD k.val 0

/-- LOADCODE of a string of any length (R97): three code words and the length. -/
def loadCode (str : List Byte) : List Instr :=
  [.wrCodeIn0 (codeWord (firstSymbols str) 0),
   .wrCodeIn1 (codeWord (firstSymbols str) 1),
   .wrCodeIn2 (codeWord (firstSymbols str) 2),
   .wrCodeInLen (BitVec.ofNat 32 str.length)]

/-- LOADKEYS (R97): 128 writes in row-major order. -/
def loadKeys (t : KeyTable) : List Instr :=
  rows.flatMap fun r => columns.map fun c => .wrKey r c ((t[r])[c].setWidth 32)

/-- LOADALPHA (R97): 32 writes. -/
def loadAlpha (a : Alphabet) : List Instr :=
  (List.finRange 32).map fun j => .wrAlpha j (a[j].setWidth 32)

/-- CLRSTICKY (R97). -/
def clrSticky : List Instr := [.wrStatus 0x00000008]

end Sys2Proof.Machine
end

