-- ==== Sys2Proof/Safety.lean ====
section
/-! DEFINITION. What counts as a sound state of the block, and the terms in which the statements speak: frames between
two states, the effect of a register write on the window, runs of instructions, and the datapath in plain
arithmetic. -/

namespace Sys2Proof.Safety
open Sys2Proof.Machine

/-! ### Frames -/

/-- The table registers and their hidden bits are the same (R22 to R27). -/
abbrev SameTables (a b : Block) : Prop :=
  a.key = b.key ∧ a.keyValid = b.keyValid ∧ a.keyRangeErr = b.keyRangeErr ∧
  a.alpha = b.alpha ∧ a.alphaValid = b.alphaValid ∧ a.alphaRangeErr = b.alphaRangeErr

/-- The operand registers are the same (R28 to R31). -/
abbrev SameOperands (a b : Block) : Prop :=
  a.idIn = b.idIn ∧ a.countIn = b.countIn ∧ a.codeIn = b.codeIn ∧ a.codeInLen = b.codeInLen

/-- The batch registers are the same (R39, R40). -/
abbrev SameBatch (a b : Block) : Prop :=
  a.batchNextId = b.batchNextId ∧ a.batchRemaining = b.batchRemaining

/-- The result registers and OUT_VALID are the same (R32 to R35). -/
abbrev SameResults (a b : Block) : Prop :=
  a.idOut = b.idOut ∧ a.freshOut = b.freshOut ∧ a.codeOut = b.codeOut ∧ a.outValid = b.outValid

/-- ERR, CAUSE and ERR_STICKY are the same (R36 to R38). -/
abbrev SameStatus (a b : Block) : Prop :=
  a.err = b.err ∧ a.cause = b.cause ∧ a.errSticky = b.errSticky

/-- What the prologue leaves of the results (R120): nothing. -/
abbrev NoResults (b : Block) : Prop :=
  b.idOut = 0 ∧ b.freshOut = 0 ∧ (∀ k : Fin 10, b.codeOut[k] = 0) ∧ b.outValid = false

/-- ERR and CAUSE of a command that succeeded (R36, R37). -/
abbrev StatusOk (b : Block) : Prop := b.err = 0 ∧ b.cause = 0

/-- ERR, CAUSE and ERR_STICKY after `raise E(cause)` (R121). -/
abbrev Raised (code : BitVec 4) (cause : Byte) (b : Block) : Prop :=
  b.err = code ∧ b.cause = cause ∧ b.errSticky = true

/-- The access has ended with the bus answer `r`, no draw was taken, and the parameter stands (R66, R266, R42;
the fields are the model's own: logs 1 to 4). -/
abbrev Ended (r : Response) (s t : State) : Prop :=
  t.response = r ∧ t.port = s.port.tail ∧ t.policy = s.policy ∧ t.draws = s.draws

/-- The access has ended and one draw was taken (R266). -/
abbrev EndedWithDraw (s t : State) : Prop :=
  t.response = .done ∧ t.port = s.port.tail ∧ t.policy = s.policy ∧ t.draws = s.draws + 1

/-! ### The window -/

/-- The value a read of the offset `off` would return (R230). -/
def reads (s : State) (off : Nat) : Word := readReg s.policy s.block off

/-- The offsets of the registers that a bus write cannot change (R74): ID_OUT to PARAMS. -/
abbrev isReadOnly (off : Nat) : Prop := 0x020 ≤ off ∧ off ≤ 0x03C

/-- The offsets to which no register is mapped (R73). -/
abbrev isUnmapped (off : Nat) : Prop := (0x040 ≤ off ∧ off ≤ 0x0FC) ∨ (0x380 ≤ off ∧ off ≤ 0x3FC)

/-- The instruction `i` completes; after it a read of `off` returns `v`, a read of every other offset returns what it
returned before, and the bits that no read shows (R45) are as before. -/
def WritesOffset (i : Instr) (off : Nat) (v : Word) (s : State) : Prop :=
  ∃ t, exec i s = .next t ∧ Ended .done s t ∧ SameTables t.block s.block ∧
    ∀ o, admitted o 4 = true → reads t o = if o = off then v else reads s o

/-! ### Kinds of instructions -/

/-- The three rows of illegal words (R126). -/
def isIllegalRow : Instr → Bool
  | .illegalOp7 _ => true
  | .illegalOp8F _ _ => true
  | .illegalOther _ => true
  | _ => false

/-- The commands that need a Codec (R256). -/
def needsCodec : Instr → Bool
  | .gen => true
  | .genF _ => true
  | .parse => true
  | .batchStart => true
  | .batchNext => true
  | .batchNextF _ => true
  | _ => false

/-- The command that an instruction runs, if it is a command row or a write to CMD. -/
def commandOf : Instr → Option Cmd
  | .nop => some .nop
  | .cfgClear => some .cfgClear
  | .cfgCommit => some .cfgCommit
  | .gen => some (.generate .random)
  | .genF f => some (.generate (.forced f))
  | .parse => some .parse
  | .batchStart => some .batchStart
  | .batchNext => some (.batchNext .random)
  | .batchNextF f => some (.batchNext (.forced f))
  | .illegalOp7 _ => some .illegal
  | .illegalOp8F _ _ => some .illegal
  | .illegalOther _ => some .illegal
  | .wrCmd w => some (decodeCmd w)
  | _ => none

/-- The instruction runs BATCH_NEXT. -/
def runsBatchNext (i : Instr) : Bool :=
  match commandOf i with
  | some (.batchNext _) => true
  | _ => false

/-- The instruction runs neither BATCH_START nor CFG_CLEAR, so it does not replace or abandon a batch (R182). -/
def keepsBatch (i : Instr) : Bool :=
  match commandOf i with
  | some .batchStart => false
  | some .cfgClear => false
  | _ => true

/-! ### Runs -/

/-- Instructions one after the other, each on the state the one before left; stops where one does not go on. -/
def execAll : List Instr → State → Option State
  | [], s => some s
  | i :: is, s =>
    match exec i s with
    | .next t => execAll is t
    | .fault _ => none
    | .refused _ => none

/-! ### The datapath in plain arithmetic -/

/-- The nibble i of an identifier as a number: the i-th hexadecimal digit from the left (R150). -/
def nibbleNat (id i : Nat) : Nat := id / 16 ^ (7 - i) % 16

/-- `SigSum` over numbers: the sum of R151. -/
def sumNat (key : KeyTable) (f : Nibble) (id : Nat) : Nat :=
  ((List.range 8).map fun i => nibbleNat id i * ((key[rowOf f]).toList.getD i 0).toNat).sum

/-- `M(f) = Mask(f,0) ++ ... ++ Mask(f,7)` as a number (R154). -/
def rowMaskNat (key : KeyTable) (f : Nibble) : Nat :=
  ((List.range 8).map fun i => ((key[rowOf f]).toList.getD i 0).toNat % 16 * 16 ^ (7 - i)).sum

/-- The payload of `id` at freshness `f` as a number: SIG * 2^36 + FRESH * 2^32 + OBF (R92, R155), with SIG the sum modulo
2^14 (R152) and OBF the identifier XOR M(f) (R154). -/
def payloadNat (key : KeyTable) (f : Nibble) (id : Nat) : Nat :=
  sumNat key f id % 2 ^ 14 * 2 ^ 36 + f.toNat * 2 ^ 32 + (id ^^^ rowMaskNat key f)

/-- The index of symbol k of a payload: the k-th of 10 groups of 5 bits from the left (R93). -/
def symbolNat (p k : Nat) : Nat := p / 2 ^ (45 - 5 * k) % 32

/-- The code carries symbol `ALPHA[SymIdx(p, k)]` at every k, for the payload `p` as a number (R93, R156). -/
def CarriesPayload (alpha : Alphabet) (code : Symbols) (p : Nat) : Prop :=
  ∀ k : Fin 10, some code[k] = alpha.toList[symbolNat p k.val]?

/-- The payload of 10 symbol indices as a number, index 0 in the most significant group (R201). -/
def unpackNat (idx : Fin 10 → SymIndex) : Nat :=
  ((List.finRange 10).map fun k => (idx k).toNat * 2 ^ (45 - 5 * k.val)).sum

/-- The freshness field of a payload, p[35:32] (R202). -/
def freshOfNat (p : Nat) : Nibble := BitVec.ofNat 4 (p / 2 ^ 32)

/-- The identifier recovered from a payload: p[31:0] XOR M(f) (R202). -/
def recoveredNat (key : KeyTable) (p : Nat) : Nat := p % 2 ^ 32 ^^^ rowMaskNat key (freshOfNat p)

/-- The signature check: the full sum over the recovered identifier equals p[49:36] (R203). -/
def SignatureHolds (key : KeyTable) (p : Nat) : Prop :=
  sumNat key (freshOfNat p) (recoveredNat key p) = p / 2 ^ 36

/-- The symbols are those of the indices `idx` (R200). -/
def SymbolsAre (alpha : Alphabet) (str : Symbols) (idx : Fin 10 → SymIndex) : Prop :=
  ∀ k : Fin 10, str[k] = alpha[positionOf (idx k)]

/-- GENERATE and BATCH_NEXT of identifier `id` at freshness `f`, on the block (R158, R181): the code, the freshness and the
identifier are shown, the status is OK, and the tables and operands stand. -/
abbrev Emitted (id : Word) (f : Nibble) (a b : Block) : Prop :=
  CarriesPayload a.alpha b.codeOut (payloadNat a.key f id.toNat) ∧ b.freshOut = f ∧ b.idOut = id ∧
  b.outValid = true ∧ StatusOk b ∧ b.errSticky = a.errSticky ∧ b.cfgState = a.cfgState ∧
  SameTables b a ∧ SameOperands b a

/-- A command that reported an error (R121): the results are zero, ERR, CAUSE and ERR_STICKY are written, and every other
register stands. -/
abbrev OnlyRaised (code : BitVec 4) (cause : Byte) (a b : Block) : Prop :=
  NoResults b ∧ Raised code cause b ∧ b.cfgState = a.cfgState ∧ SameTables b a ∧ SameOperands b a ∧ SameBatch b a

/-- The Alphabet maps no two indices to one symbol (R135). -/
def AlphaInjective (alpha : Alphabet) : Prop := ∀ j k : Fin 32, alpha[j] = alpha[k] → j = k

/-- Every row's largest signature fits in 14 bits: what REJECT asks of a table (R134). -/
def CapacityRespected (key : KeyTable) : Prop := ∀ r : Fin 16, 15 * rowSum key[r] ≤ 16383

/-! ### Sound states -/

/-- What a successful commit has checked, and the lock keeps (R135, R46). -/
structure Committed (s : State) : Prop where
  keyWritten : ∀ (r : Fin 16) (c : Fin 8), (s.block.keyValid[r])[c] = true
  alphaWritten : ∀ j : Fin 32, s.block.alphaValid[j] = true
  keyInRange : s.block.keyRangeErr = false
  alphaInRange : s.block.alphaRangeErr = false
  injective : AlphaInjective s.block.alpha
  capacity : s.policy = .reject → CapacityRespected s.block.key

/-- CAUSE has the format of its ERR (R86, R87, R208): ERR is 0 to 9 and never FRESH_RANGE; CONFIG_ERROR has some of bits 5
to 0, SIG_CAPACITY only under REJECT; DECODE_FORMAT is a bad length or an unknown symbol at a position; every other code
has CAUSE 0. -/
structure StatusSound (s : State) : Prop where
  produced : s.block.err.toNat ≤ 9 ∧ s.block.err ≠ 4
  configCause : s.block.err = 1 →
    s.block.cause ≠ 0 ∧ s.block.cause.toNat < 64 ∧ (s.policy = .truncate → s.block.cause.getLsbD 3 = false)
  formatCause : s.block.err = 3 → s.block.cause = 1 ∨ ∃ k : Fin 10, s.block.cause.toNat = 2 + 16 * k.val
  noCause : s.block.err ≠ 1 → s.block.err ≠ 3 → s.block.cause = 0

/-- The results are those of a command that succeeded, or zero (R32 to R35, R120): valid results stand on a committed
Codec, next to ERR = OK or the CONFIG_LOCKED of a later rejected table write (R258), and CODE_OUT is zero (PARSE) or the
code of ID_OUT at FRESH_OUT (GENERATE, BATCH_NEXT). -/
structure ResultsSound (b : Block) : Prop where
  zeroed : b.outValid = false → NoResults b
  configured : b.outValid = true → b.cfgState = .ready
  status : b.outValid = true → b.err = 0 ∨ b.err = 8
  code : b.outValid = true →
    b.codeOut = Vector.replicate 10 0 ∨ b.codeOut = genCode b.key b.alpha b.idOut b.freshOut

/-- The batch registers: zero without a Codec (R130, R181), and no code to come for a wrapped identifier (R180, R181). -/
structure BatchSound (b : Block) : Prop where
  inactive : b.cfgState = .unconfigured → b.batchNextId = 0 ∧ b.batchRemaining = 0
  inRange : b.batchRemaining ≠ 0 → b.batchNextId.toNat + b.batchRemaining.toNat - 1 ≤ Config.maxIdentifier

/-- An unwritten table entry reads 0 (R238). -/
structure UnwrittenZero (b : Block) : Prop where
  key : ∀ (r : Fin 16) (c : Fin 8), (b.keyValid[r])[c] = false → (b.key[r])[c] = 0
  alpha : ∀ j : Fin 32, b.alphaValid[j] = false → b.alpha[j] = 0

/-- The invariant of the block. -/
structure Inv (s : State) : Prop where
  committed : s.block.cfgState = .ready → Committed s
  status : StatusSound s
  results : ResultsSound s.block
  batch : BatchSound s.block
  unwritten : UnwrittenZero s.block

end Sys2Proof.Safety
end

