-- ==== Sys2Proof/WellFormed.lean ====
section
/-! DEFINITION. Which terms of `Instr` the host can issue: the checks on operands that their types do not make. -/

namespace Sys2Proof

/-- The word of the row ILLEGAL (any other word): not legal, and in neither of the two rows of reserved operation
codes, so OP is 0x0 to 0x6 (R83, R126). -/
def isOtherIllegal (w : Word) : Bool := !legal w && decide (opField w < 0x7)

/-- Well-formed instructions. Three rows restrict their operand: the other illegal words (R83), the offset of an
admitted read (R61, R230), and the access of BUS_ERROR, which is not admitted (R260). -/
def wellFormed : Instr → Bool
  | .nop => true
  | .cfgClear => true
  | .cfgCommit => true
  | .gen => true
  | .genF _ => true
  | .parse => true
  | .batchStart => true
  | .batchNext => true
  | .batchNextF _ => true
  | .illegalOp7 _ => true
  | .illegalOp8F _ _ => true
  | .illegalOther w => isOtherIllegal w
  | .wrKey _ _ _ => true
  | .wrAlpha _ _ => true
  | .wrIdIn _ => true
  | .wrCountIn _ => true
  | .wrCodeInLen _ => true
  | .wrCodeIn0 _ => true
  | .wrCodeIn1 _ => true
  | .wrCodeIn2 _ => true
  | .wrStatus _ => true
  | .wrCmd _ => true
  | .rd off => admitted off 4
  | .busError a => !a.isAdmitted

end Sys2Proof
end

