-- ==== Sys2Proof/Certificates/Slice0/Obligations.lean ====
section
/-! DEFINITION. The statements for the provers: each formalises what its docstring names of spec/. Where a statement says
how an access ends (`Ended`, `EndedWithDraw`), the bus answer and the number of draws are the spec's (R61, R62, R266); the
fields that hold them, and the port, are the model's own (logs 2, 3 and 4). -/

open Sys2Proof Sys2Proof.Machine Sys2Proof.Safety

/-! ### Decoding -/

/-- R82, R89, R96: some words written out from the encodings decode to the instruction they stand for. -/
def Obligations.SampleWordsDecode : Prop :=
  decode (.cmd 0b00000000000000000000_1101_000_1_0011) = .ok (.genF 13) ∧
  decode (.cmd 0b00000000000000000000_0101_000_1_0110) = .ok (.batchNextF 5) ∧
  decode (.cmd 0b00000000000000000000_0000_000_0_0100) = .ok .parse ∧
  decode (.cmd 0b00000000000000000001_0000_000_0_0011) = .ok (.illegalOther 0x00001003) ∧
  decode (.access (.write 0x174 4 11)) = .ok (.wrKey 3 5 11) ∧
  decode (.access (.write 0x37C 4 0x39)) = .ok (.wrAlpha 31 0x39) ∧
  decode (.access (.read 0x004 1)) = .ok (.busError (.read 0x004 1))

/-- R83: a word is legal by its fields as the formula says; the legal words are exactly the 7 + 32 listed, 39 words; every
other word decodes to ILLEGAL and executes as ILLEGAL_COMMAND. -/
def Obligations.LegalWordsAreThoseListed : Prop :=
  (∀ w : Word, legal w = true ↔
    w.extractLsb' 12 20 = 0 ∧ w.extractLsb' 5 3 = 0 ∧
      ((w.extractLsb' 0 4 ∈ ([0x0, 0x1, 0x2, 0x4, 0x5] : List (BitVec 4)) ∧ w.getLsbD 4 = false ∧
          w.extractLsb' 8 4 = 0) ∨
        (w.extractLsb' 0 4 ∈ ([0x3, 0x6] : List (BitVec 4)) ∧ (w.getLsbD 4 = true ∨ w.extractLsb' 8 4 = 0)))) ∧
  (∀ w : Word, legal w = true ↔
    w ∈ [0x00000000, 0x00000001, 0x00000002, 0x00000004, 0x00000005, 0x00000003, 0x00000006] ∨
      ∃ f : Nibble, w = 0x00000013 + 0x100 * f.setWidth 32 ∨ w = 0x00000016 + 0x100 * f.setWidth 32) ∧
  (∃ l : List Word, l.Nodup ∧ l.length = 39 ∧ ∀ w, legal w = true ↔ w ∈ l) ∧
  (∀ w : Word, legal w = false ↔ decodeCmd w = .illegal) ∧
  (∀ (w : Word) (s : State), legal w = false → ∃ t, exec (.wrCmd w) s = .next t ∧ t.block.err = 7)

/-- Decode and encode agree: every well-formed instruction, with every operand, is read back from its encoding. -/
def Obligations.DecodeOfEncode : Prop :=
  ∀ i : Instr, wellFormed i = true → decode (encode i) = .ok i

/-- The other direction: what decodes to an instruction is that instruction's encoding, and the instruction is well
formed. The second clause is the model's own reading (DEDUCED: log 6): an admitted write to a read-only or unmapped offset
decodes to no instruction and is named ignoredWrite; R73 and R74 say only that such a write is ignored. -/
def Obligations.EncodeOfDecode : Prop :=
  (∀ (e : Encoded) (i : Instr), decode e = .ok i → wellFormed i = true ∧ encode i = e) ∧
  (∀ (e : Encoded) (off : Nat) (v : Word), decode e = .error (.ignoredWrite off v) ↔
    e = .access (.write off 4 v) ∧ off % 4 = 0 ∧ (isReadOnly off ∨ isUnmapped off))

/-- R89, R90: the KEY and ALPHA windows hold each entry at one offset, in row-major order, and every aligned offset of a
window is some entry's, with the row, column and index that the rules compute. -/
def Obligations.TableWindowsAreBijective : Prop :=
  (∀ (r : Fin 16) (c : Fin 8), keyOffset r c = 0x100 + 32 * r.val + 4 * c.val ∧
    admitted (keyOffset r c) 4 = true ∧ inKeyWindow (keyOffset r c)) ∧
  (∀ off, off % 4 = 0 → inKeyWindow off →
    ∃ r : Fin 16, ∃ c : Fin 8, keyOffset r c = off ∧ r.val = (off - 0x100) / 32 ∧ c.val = (off - 0x100) % 32 / 4 ∧
      ∀ (r' : Fin 16) (c' : Fin 8), keyOffset r' c' = off → r' = r ∧ c' = c) ∧
  (∀ j : Fin 32, alphaOffset j = 0x300 + 4 * j.val ∧
    admitted (alphaOffset j) 4 = true ∧ inAlphaWindow (alphaOffset j)) ∧
  (∀ off, off % 4 = 0 → inAlphaWindow off →
    ∃ j : Fin 32, alphaOffset j = off ∧ j.val = (off - 0x300) / 4 ∧ ∀ j' : Fin 32, alphaOffset j' = off → j' = j)

/-! ### The step and the bus -/

/-- R62, R68: the access at the head of the port runs the instruction it decodes to, completes, and leaves the port
(the port is the model's own: log 3). -/
def Obligations.StepRunsDecodedInstruction : Prop :=
  ∀ (s : State) (a : BusAccess) (rest : List PortEvent) (i : Instr),
    s.port = .access a :: rest → decode (.access a) = .ok i →
    ∃ t, step s = .next t ∧ exec i s = .next t ∧ t.port = rest ∧ t.policy = s.policy

/-- 60_exceptions.md section 4, 70_reset_and_hazards.md section 1: the block never stops. A step that gives no next state is
one with a reset asserted during an access, which is refused (log 10). With nothing pending the state stays (the model's
choice: log 3), and a reset leaves the parameter and the accesses still to come (the model's choice: logs 1 and 10). -/
def Obligations.StepStopsOnlyOnResetDuringAccess : Prop :=
  ∀ s : State,
    (s.port = [] → step s = .next s) ∧
    ((∃ a rest, s.port = .resetDuring a :: rest) → step s = .refused .resetDuringAccess) ∧
    ((¬ ∃ a rest, s.port = .resetDuring a :: rest) → ∃ t, step s = .next t) ∧
    (∀ rest, s.port = .reset :: rest → ∃ t, step s = .next t ∧ t.port = rest ∧ t.policy = s.policy)

/-- R61, R260: an access is admitted exactly when it is aligned, 4 bytes wide and at most at 0x3FC; any other access gets
BUS_ERROR without data and changes nothing in the block. -/
def Obligations.UnadmittedAccessOnlyAnswersBusError : Prop :=
  ∀ (a : BusAccess) (s : State),
    (a.isAdmitted = true ↔
      ∃ off, off % 4 = 0 ∧ off ≤ 0x3FC ∧ (a = .read off 4 ∨ ∃ v, a = .write off 4 v)) ∧
    (a.isAdmitted = false →
      ∃ t, exec (.busError a) s = .next t ∧ t.block = s.block ∧ Ended .busError s t ∧
        ∀ rest, s.port = .access a :: rest → step s = .next t ∧ t.port = rest)

/-- R74, R73: a write to a read-only register or an unmapped offset completes and changes nothing; so does a write to STATUS
but for its bit 3, which clears ERR_STICKY alone; an unmapped offset reads 0. -/
def Obligations.UnmappedAndReadOnlyIgnoreWrites : Prop :=
  (∀ (s : State) (off : Nat) (v : Word) (rest : List PortEvent),
    s.port = .access (.write off 4 v) :: rest → off % 4 = 0 → isReadOnly off ∨ isUnmapped off →
    ∃ t, step s = .next t ∧ t.block = s.block ∧ Ended .done s t) ∧
  (∀ (s : State) (v : Word) (rest : List PortEvent), s.port = .access (.write 0x004 4 v) :: rest →
    ∃ t, step s = .next t ∧ Ended .done s t ∧
      t.block = if v.getLsbD 3 then { s.block with errSticky := false } else s.block) ∧
  (∀ (s : State) (off : Nat), off % 4 = 0 → isUnmapped off →
    ∃ t, exec (.rd off) s = .next t ∧ t.block = s.block ∧ Ended (.data 0) s t)

/-- R280: a reset between accesses sets every state element to its reset value, raises no error and draws nothing. -/
def Obligations.ResetClearsTheBlock : Prop :=
  ∀ (s : State) (rest : List PortEvent), s.port = .reset :: rest →
    ∃ t, step s = .next t ∧ t.draws = s.draws ∧
      t.block.cfgState = .unconfigured ∧
      (∀ (r : Fin 16) (c : Fin 8), (t.block.key[r])[c] = 0 ∧ (t.block.keyValid[r])[c] = false) ∧
      (∀ j : Fin 32, t.block.alpha[j] = 0 ∧ t.block.alphaValid[j] = false) ∧
      t.block.keyRangeErr = false ∧ t.block.alphaRangeErr = false ∧
      t.block.idIn = 0 ∧ t.block.countIn = 0 ∧ (∀ k : Fin 10, t.block.codeIn[k] = 0) ∧ t.block.codeInLen = 0 ∧
      NoResults t.block ∧ StatusOk t.block ∧ t.block.errSticky = false ∧
      t.block.batchNextId = 0 ∧ t.block.batchRemaining = 0

/-- R281, R88: after reset every register reads 0 through the bus, STATUS included, and PARAMS its constant. -/
def Obligations.RegistersReadZeroAfterReset : Prop :=
  ∀ (s : State) (off : Nat), s.block = Block.reset → admitted off 4 = true →
    ∃ t, exec (.rd off) s = .next t ∧
      t.response = .data (if off = 0x03C then (if s.policy = .reject then 0x00081001 else 0x00081000) else 0)

/-! ### Register reads and writes -/

/-- R230, R88: an admitted read completes, returns what the case of its offset says, PARAMS its constant, and changes no state
of the block. -/
def Obligations.ReadReturnsRegister : Prop :=
  ∀ (off : Nat) (s : State), admitted off 4 = true →
    ∃ t, exec (.rd off) s = .next t ∧ t.block = s.block ∧ Ended (.data (reads s off)) s t ∧
      (off = 0x000 → t.response = .data 0) ∧
      (off = 0x004 → t.response = .data (statusWord s.block)) ∧
      (off = 0x008 → t.response = .data s.block.idIn) ∧
      (off = 0x00C → t.response = .data s.block.countIn) ∧
      (off = 0x010 → t.response = .data s.block.codeInLen) ∧
      (off = 0x014 → t.response =
        .data (s.block.codeIn[3] ++ s.block.codeIn[2] ++ s.block.codeIn[1] ++ s.block.codeIn[0])) ∧
      (off = 0x018 → t.response =
        .data (s.block.codeIn[7] ++ s.block.codeIn[6] ++ s.block.codeIn[5] ++ s.block.codeIn[4])) ∧
      (off = 0x01C → t.response = .data ((s.block.codeIn[9] ++ s.block.codeIn[8]).setWidth 32)) ∧
      (off = 0x020 → t.response = .data s.block.idOut) ∧
      (off = 0x024 → t.response = .data (s.block.freshOut.setWidth 32)) ∧
      (off = 0x028 → t.response =
        .data (s.block.codeOut[3] ++ s.block.codeOut[2] ++ s.block.codeOut[1] ++ s.block.codeOut[0])) ∧
      (off = 0x02C → t.response =
        .data (s.block.codeOut[7] ++ s.block.codeOut[6] ++ s.block.codeOut[5] ++ s.block.codeOut[4])) ∧
      (off = 0x030 → t.response = .data ((s.block.codeOut[9] ++ s.block.codeOut[8]).setWidth 32)) ∧
      (off = 0x034 → t.response = .data s.block.batchNextId) ∧
      (off = 0x038 → t.response = .data s.block.batchRemaining) ∧
      (off = 0x03C → t.response = .data (if s.policy = .reject then 0x00081001 else 0x00081000)) ∧
      (∀ (r : Fin 16) (c : Fin 8), off = keyOffset r c → t.response = .data (((s.block.key[r])[c]).setWidth 32)) ∧
      (∀ j : Fin 32, off = alphaOffset j → t.response = .data ((s.block.alpha[j]).setWidth 32)) ∧
      (isUnmapped off → t.response = .data 0)

/-- R85: the bits of STATUS, and its reset value. -/
def Obligations.StatusWordLayout : Prop :=
  (∀ s : State,
    (reads s 0x004).getLsbD 0 = decide (s.block.cfgState = .ready) ∧
    (reads s 0x004).getLsbD 1 = s.block.outValid ∧
    (reads s 0x004).getLsbD 2 = decide (s.block.batchRemaining ≠ 0) ∧
    (reads s 0x004).getLsbD 3 = s.block.errSticky ∧
    (reads s 0x004).extractLsb' 4 4 = s.block.err ∧
    (reads s 0x004).extractLsb' 8 8 = s.block.cause ∧
    (reads s 0x004).extractLsb' 16 16 = 0) ∧
  reads State.reset 0x004 = 0x00000000

/-- R65, R91: symbol k of CODE_IN and of CODE_OUT is byte lane k mod 4 of code word k div 4, and the three words' lanes in
order are the 10 symbols and two zero bytes. -/
def Obligations.CodeWordsHoldSymbolsInLanes : Prop :=
  ∀ s : State,
    (∀ k : Fin 10,
      (reads s (0x014 + 4 * (k.val / 4))).extractLsb' (8 * (k.val % 4)) 8 = s.block.codeIn[k] ∧
      (reads s (0x028 + 4 * (k.val / 4))).extractLsb' (8 * (k.val % 4)) 8 = s.block.codeOut[k]) ∧
    ([0x014, 0x018, 0x01C].flatMap fun off => ([0, 1, 2, 3] : List (Fin 4)).map (lane (reads s off)))
      = s.block.codeIn.toList ++ [0, 0] ∧
    ([0x028, 0x02C, 0x030].flatMap fun off => ([0, 1, 2, 3] : List (Fin 4)).map (lane (reads s off)))
      = s.block.codeOut.toList ++ [0, 0]

/-- R231 to R234: a write to an operand register completes in every state and raises no error; the register then reads the
written value (CODE_IN2 its low 16 bits), and no other register changes. -/
def Obligations.OperandWritesStoreTheirRegister : Prop :=
  ∀ (v : Word) (s : State),
    decode (.access (.write 0x008 4 v)) = .ok (.wrIdIn v) ∧
    decode (.access (.write 0x00C 4 v)) = .ok (.wrCountIn v) ∧
    WritesOffset (.wrIdIn v) 0x008 v s ∧
    WritesOffset (.wrCountIn v) 0x00C v s ∧
    WritesOffset (.wrCodeInLen v) 0x010 v s ∧
    WritesOffset (.wrCodeIn0 v) 0x014 v s ∧
    WritesOffset (.wrCodeIn1 v) 0x018 v s ∧
    WritesOffset (.wrCodeIn2 v) 0x01C (v &&& 0x0000FFFF) s

/-- R235: a write to STATUS with bit 3 set clears ERR_STICKY; every other bit of the written word is ignored, and nothing
else changes. -/
def Obligations.StatusWriteClearsStickyOnly : Prop :=
  ∀ (v : Word) (s : State),
    decode (.access (.write 0x004 4 v)) = .ok (.wrStatus v) ∧
    WritesOffset (.wrStatus v) 0x004
      (if v.getLsbD 3 then reads s 0x004 &&& 0xFFFFFFF7 else reads s 0x004) s

/-- R127: a KEY write while UNCONFIGURED stores the low 16 bits, sets the entry's valid bit, and records a value of 2^16 or
more; no other register reads differently, and no status changes. -/
def Obligations.KeyWriteStoresEntry : Prop :=
  ∀ (r : Fin 16) (c : Fin 8) (v : Word) (s : State), s.block.cfgState = .unconfigured →
    ∃ t, exec (.wrKey r c v) s = .next t ∧ Ended .done s t ∧
      (∀ o, admitted o 4 = true → reads t o = if o = keyOffset r c then v &&& 0x0000FFFF else reads s o) ∧
      (∀ (r' : Fin 16) (c' : Fin 8),
        (t.block.keyValid[r'])[c'] = (decide (r' = r ∧ c' = c) || (s.block.keyValid[r'])[c'])) ∧
      t.block.keyRangeErr = (s.block.keyRangeErr || decide (2 ^ 16 ≤ v.toNat)) ∧
      t.block.alphaValid = s.block.alphaValid ∧ t.block.alphaRangeErr = s.block.alphaRangeErr

/-- R129: an ALPHA write while UNCONFIGURED stores the low 8 bits, sets the entry's valid bit, and records a value of 2^8 or
more; no other register reads differently, and no status changes. -/
def Obligations.AlphaWriteStoresSymbol : Prop :=
  ∀ (j : Fin 32) (v : Word) (s : State), s.block.cfgState = .unconfigured →
    ∃ t, exec (.wrAlpha j v) s = .next t ∧ Ended .done s t ∧
      (∀ o, admitted o 4 = true → reads t o = if o = alphaOffset j then v &&& 0x000000FF else reads s o) ∧
      (∀ j' : Fin 32, t.block.alphaValid[j'] = (decide (j' = j) || s.block.alphaValid[j'])) ∧
      t.block.alphaRangeErr = (s.block.alphaRangeErr || decide (2 ^ 8 ≤ v.toNat)) ∧
      t.block.keyValid = s.block.keyValid ∧ t.block.keyRangeErr = s.block.keyRangeErr

/-- R258: a table write while READY only reports CONFIG_LOCKED: STATUS keeps READY, OUT_VALID and BATCH_ACTIVE, and every
other register reads as before; CFG_COMMIT while READY reports it too, and changes no table. -/
def Obligations.LockedTableWriteOnlyReports : Prop :=
  ∀ s : State, s.block.cfgState = .ready →
    (∀ (r : Fin 16) (c : Fin 8) (v : Word),
      WritesOffset (.wrKey r c v) 0x004 (reads s 0x004 &&& 0x00000007 ||| 0x00000088) s) ∧
    (∀ (j : Fin 32) (v : Word),
      WritesOffset (.wrAlpha j v) 0x004 (reads s 0x004 &&& 0x00000007 ||| 0x00000088) s) ∧
    (∃ t, exec .cfgCommit s = .next t ∧ Ended .done s t ∧ OnlyRaised 8 0 s.block t.block)

/-! ### Commands: the common part, NOP and illegal words -/

/-- R122: a write to CMD runs exactly the command row its word belongs to, and no command writes an operand register (R28 to
R31). -/
def Obligations.CommandWriteRunsItsRow : Prop :=
  ∀ (w : Word) (s : State),
    ∃ t, exec (.wrCmd w) s = .next t ∧ exec (cmdRow w) s = .next t ∧ t.response = .done ∧
      t.port = s.port.tail ∧ t.policy = s.policy ∧ SameOperands t.block s.block

/-- R121, R250: errors are precise. A command that ends with ERR not OK has shown no result, has set ERR_STICKY, and has
changed no other register; one that ends with ERR = OK has CAUSE 0 and has left ERR_STICKY as it was. -/
def Obligations.CommandErrorsArePrecise : Prop :=
  ∀ (w : Word) (s t : State), exec (.wrCmd w) s = .next t →
    (t.block.err ≠ 0 → OnlyRaised t.block.err t.block.cause s.block t.block ∧ t.draws = s.draws) ∧
    (t.block.err = 0 → t.block.cause = 0 ∧ t.block.errSticky = s.block.errSticky)

/-- R125: NOP runs the prologue only. -/
def Obligations.NopOnlyClearsResults : Prop :=
  decodeCmd 0x00000000 = .nop ∧
  ∀ s : State,
    ∃ t, exec .nop s = .next t ∧ Ended .done s t ∧ NoResults t.block ∧ StatusOk t.block ∧
      t.block.cfgState = s.block.cfgState ∧ t.block.errSticky = s.block.errSticky ∧
      SameTables t.block s.block ∧ SameOperands t.block s.block ∧ SameBatch t.block s.block ∧
      reads t 0x004 = reads s 0x004 &&& 0x0000000D

/-- R126: an illegal word reports ILLEGAL_COMMAND after the prologue and does nothing else, whichever of the three rows it
belongs to. -/
def Obligations.IllegalWordOnlyReports : Prop :=
  ∀ (i : Instr) (s : State), isIllegalRow i = true →
    ∃ t, exec i s = .next t ∧ Ended .done s t ∧ OnlyRaised 7 0 s.block t.block ∧
      reads t 0x004 = (reads s 0x004 &&& 0x00000005 ||| 0x00000078) ∧
      ∀ w : Word, legal w = false → exec (.wrCmd w) s = .next t

/-! ### Configuration -/

/-- R130: CFG_CLEAR zeroes the tables, their valid bits, the range flags and the batch, in either configuration state; the
operands and ERR_STICKY keep their values. -/
def Obligations.CfgClearZeroesConfiguration : Prop :=
  decodeCmd 0x00000001 = .cfgClear ∧
  ∀ s : State,
    ∃ t, exec .cfgClear s = .next t ∧ Ended .done s t ∧ t.block.cfgState = .unconfigured ∧
      (∀ (r : Fin 16) (c : Fin 8), (t.block.key[r])[c] = 0 ∧ (t.block.keyValid[r])[c] = false) ∧
      (∀ j : Fin 32, t.block.alpha[j] = 0 ∧ t.block.alphaValid[j] = false) ∧
      t.block.keyRangeErr = false ∧ t.block.alphaRangeErr = false ∧
      t.block.batchNextId = 0 ∧ t.block.batchRemaining = 0 ∧
      NoResults t.block ∧ StatusOk t.block ∧ t.block.errSticky = s.block.errSticky ∧
      SameOperands t.block s.block ∧ reads t 0x004 = reads s 0x004 &&& 0x00000008

/-- R132, R133: each bit of ConfigCheck's CAUSE is set exactly when its condition holds. -/
def Obligations.ConfigCheckReportsEachCause : Prop :=
  ∀ (p : SigOvfPolicy) (b : Block),
    ((configCheck p b).getLsbD 0 = true ↔ ∃ (r : Fin 16) (c : Fin 8), (b.keyValid[r])[c] = false) ∧
    ((configCheck p b).getLsbD 1 = true ↔ ∃ j : Fin 32, b.alphaValid[j] = false) ∧
    ((configCheck p b).getLsbD 2 = true ↔ ∃ j k : Fin 32, j < k ∧ b.alpha[j] = b.alpha[k]) ∧
    ((configCheck p b).getLsbD 3 = true ↔ p = .reject ∧ ∃ r : Fin 16, 16383 < 15 * rowSum b.key[r]) ∧
    (configCheck p b).getLsbD 4 = b.keyRangeErr ∧
    (configCheck p b).getLsbD 5 = b.alphaRangeErr ∧
    (configCheck p b).extractLsb' 6 2 = 0

/-- R134: the capacity check is exact. It fails exactly when some identifier and freshness value overflow 14 bits; the
largest sum of a row is 15 times its entries' sum, reached at 0xFFFFFFFF; a row passes exactly when its entries sum to at
most 1092; under TRUNCATE nothing is checked. -/
def Obligations.CapacityCheckIsExact : Prop :=
  ∀ key : KeyTable,
    (sigCapacityExceeded key = true ↔ ∃ (f : Nibble) (id : Word), 16383 < sigSum key f id) ∧
    (∀ (f : Nibble) (id : Word), sigSum key f id ≤ sigSum key f 0xFFFFFFFF) ∧
    (∀ f : Nibble, sigSum key f 0xFFFFFFFF = 15 * rowSum key[rowOf f]) ∧
    (∀ r : Fin 16, 15 * rowSum key[r] ≤ 16383 ↔ rowSum key[r] ≤ 1092) ∧
    (∀ (r : Fin 16) (c : Fin 8), rowSum key[r] ≤ 1092 → ((key[r])[c]).toNat ≤ 1092) ∧
    (∀ b : Block, (configCheck .truncate b).getLsbD 3 = false)

/-- R131: CFG_COMMIT of a complete, in-range configuration with distinct symbols (and, under REJECT, rows within capacity)
makes the block READY and changes no table. -/
def Obligations.CommitOfSoundTablesSucceeds : Prop :=
  ∀ s : State, s.block.cfgState = .unconfigured → Committed s →
    ∃ t, exec .cfgCommit s = .next t ∧ Ended .done s t ∧ t.block.cfgState = .ready ∧
      NoResults t.block ∧ StatusOk t.block ∧ t.block.errSticky = s.block.errSticky ∧
      SameTables t.block s.block ∧ SameOperands t.block s.block ∧ SameBatch t.block s.block ∧
      reads t 0x004 = (reads s 0x004 &&& 0x0000000C ||| 0x00000001)

/-- R131, R251: CFG_COMMIT of an unsound configuration reports CONFIG_ERROR with every failing check in CAUSE, and changes
nothing else. -/
def Obligations.CommitFailureOnlyReports : Prop :=
  ∀ s : State, s.block.cfgState = .unconfigured → ¬ Committed s →
    ∃ t, exec .cfgCommit s = .next t ∧ Ended .done s t ∧
      OnlyRaised 1 (configCheck s.policy s.block) s.block t.block ∧ configCheck s.policy s.block ≠ 0

/-- R46: while READY no table register and no valid bit or range flag changes, and the block stays READY, but by CFG_CLEAR
or reset. -/
def Obligations.LockKeepsTables : Prop :=
  ∀ s t : State, s.block.cfgState = .ready → step s = .next t →
    s.port.head? ≠ some .reset → s.port.head? ≠ some (.access (.write 0x000 4 0x00000001)) →
    t.block.cfgState = .ready ∧ SameTables t.block s.block

/-! ### The generate datapath -/

/-- R151: SigSum is the exact sum of the identifier's nibbles times the row's full entries, at most 7864200, so it fits in 23
bits. -/
def Obligations.SigSumIsExact : Prop :=
  ∀ (key : KeyTable) (f : Nibble) (id : Word),
    sigSum key f id = sumNat key f id.toNat ∧ sigSum key f id ≤ 7864200 ∧ sigSum key f id < 2 ^ 23

/-- R153, R154: the permuter is the XOR with the constant mask M(f), made of the row's entries modulo 16. -/
def Obligations.PermuterXorsRowMask : Prop :=
  ∀ (key : KeyTable) (f : Nibble) (x : Word), (obf key f x).toNat = x.toNat ^^^ rowMaskNat key f

/-- R160: the permuter is an involution, a bijection, and acts on each nibble alone. -/
def Obligations.PermuterIsInvolution : Prop :=
  ∀ (key : KeyTable) (f : Nibble),
    (∀ x : Word, obf key f (obf key f x) = x) ∧
    Function.Bijective (obf key f) ∧
    (∀ (x : Word) (i : Fin 8), nib (obf key f x) i = nib x i ^^^ mask key f i)

/-- R155 to R157, R93: the code of an identifier carries, five bits to a symbol, the payload signature ++ fresh ++ obfuscated
identifier, computed in plain arithmetic. -/
def Obligations.GeneratedCodeCarriesPayload : Prop :=
  ∀ (key : KeyTable) (alpha : Alphabet) (id : Word) (f : Nibble),
    CarriesPayload alpha (genCode key alpha id f) (payloadNat key f id.toNat) ∧ payloadNat key f id.toNat < 2 ^ 50

/-- R163: under distinct symbols a code determines both its identifier and its freshness value. -/
def Obligations.GeneratedCodesAreInjective : Prop :=
  ∀ (key : KeyTable) (alpha : Alphabet) (id id' : Word) (f f' : Nibble), AlphaInjective alpha →
    genCode key alpha id f = genCode key alpha id' f' → id = id' ∧ f = f'

/-! ### GENERATE and batches -/

/-- R158, R159: GENERATE while READY writes the code of ID_IN at the forced freshness, or at the drawn one, taking one draw (the
counter is the model's own: log 2); the batch registers stand. -/
def Obligations.GenerateWritesCodeOfIdIn : Prop :=
  ∀ s : State, s.block.cfgState = .ready →
    (∀ f : Nibble, ∃ t, exec (.genF f) s = .next t ∧ Ended .done s t ∧
      Emitted s.block.idIn f s.block t.block ∧ SameBatch t.block s.block ∧
      reads t 0x004 = (reads s 0x004 &&& 0x0000000C ||| 0x00000003)) ∧
    (∃ t, exec .gen s = .next t ∧ EndedWithDraw s t ∧
      Emitted s.block.idIn (Config.entropy s.draws) s.block t.block ∧ SameBatch t.block s.block ∧
      reads t 0x004 = (reads s 0x004 &&& 0x0000000C ||| 0x00000003))

/-- R256: every command that needs a Codec reports NOT_CONFIGURED while UNCONFIGURED; nothing else changes and no draw is
taken. -/
def Obligations.UnconfiguredCommandsReportNotConfigured : Prop :=
  ∀ (i : Instr) (s : State), needsCodec i = true → s.block.cfgState = .unconfigured →
    ∃ t, exec i s = .next t ∧ Ended .done s t ∧ OnlyRaised 6 0 s.block t.block

/-- R161: a forced GENERATE depends on ID_IN, the freshness, KEY and ALPHA only; and every symbol that a GENERATE, forced or
not, emits is a member of the Alphabet. -/
def Obligations.ForcedGenerateIsDeterminedByOperands : Prop :=
  (∀ (f : Nibble) (s s' t t' : State), s.block.cfgState = .ready → s'.block.cfgState = .ready →
    s.block.idIn = s'.block.idIn → s.block.key = s'.block.key → s.block.alpha = s'.block.alpha →
    exec (.genF f) s = .next t → exec (.genF f) s' = .next t' → SameResults t.block t'.block) ∧
  (∀ (i : Instr) (s t : State), i = .gen ∨ (∃ f : Nibble, i = .genF f) → s.block.cfgState = .ready →
    exec i s = .next t → ∀ k : Fin 10, ∃ j : Fin 32, t.block.codeOut[k] = s.block.alpha[j])

/-- R180: BATCH_START of a range within 32 bits (count 0 included) loads the batch registers. -/
def Obligations.BatchStartLoadsRange : Prop :=
  ∀ s : State, s.block.cfgState = .ready →
    s.block.countIn = 0 ∨ s.block.idIn.toNat + s.block.countIn.toNat ≤ 2 ^ 32 →
    ∃ t, exec .batchStart s = .next t ∧ Ended .done s t ∧
      t.block.batchNextId = s.block.idIn ∧ t.block.batchRemaining = s.block.countIn ∧
      NoResults t.block ∧ StatusOk t.block ∧ t.block.errSticky = s.block.errSticky ∧ t.block.cfgState = .ready ∧
      SameTables t.block s.block ∧ SameOperands t.block s.block

/-- R180, R252: BATCH_START of a range whose last identifier exceeds 0xFFFFFFFF reports ENCODING_RANGE, and the batch
registers keep their values; GENERATE never reports it. -/
def Obligations.BatchStartRefusesOverflow : Prop :=
  (∀ s : State, s.block.cfgState = .ready →
    s.block.countIn ≠ 0 → 0xFFFFFFFF < s.block.idIn.toNat + s.block.countIn.toNat - 1 →
    ∃ t, exec .batchStart s = .next t ∧ Ended .done s t ∧ OnlyRaised 2 0 s.block t.block) ∧
  (∀ (i : Instr) (s t : State), i = .gen ∨ (∃ f : Nibble, i = .genF f) → exec i s = .next t → t.block.err ≠ 2)

/-- R181: BATCH_NEXT with codes left writes the code of BATCH_NEXT_ID at the forced or drawn freshness (the counter of
draws is the model's own: log 2) and advances the batch by one. -/
def Obligations.BatchNextEmitsAndAdvances : Prop :=
  ∀ s : State, s.block.cfgState = .ready → s.block.batchRemaining ≠ 0 →
    (∀ f : Nibble, ∃ t, exec (.batchNextF f) s = .next t ∧ Ended .done s t ∧
      Emitted s.block.batchNextId f s.block t.block ∧
      t.block.batchNextId.toNat = (s.block.batchNextId.toNat + 1) % 2 ^ 32 ∧
      t.block.batchRemaining.toNat + 1 = s.block.batchRemaining.toNat) ∧
    (∃ t, exec .batchNext s = .next t ∧ EndedWithDraw s t ∧
      Emitted s.block.batchNextId (Config.entropy s.draws) s.block t.block ∧
      t.block.batchNextId.toNat = (s.block.batchNextId.toNat + 1) % 2 ^ 32 ∧
      t.block.batchRemaining.toNat + 1 = s.block.batchRemaining.toNat)

/-- R259: BATCH_NEXT while READY with no code left reports BATCH_EMPTY; no draw is taken. -/
def Obligations.EmptyBatchOnlyReports : Prop :=
  ∀ (i : Instr) (s : State), i = .batchNext ∨ (∃ f : Nibble, i = .batchNextF f) →
    s.block.cfgState = .ready → s.block.batchRemaining = 0 →
    ∃ t, exec i s = .next t ∧ Ended .done s t ∧ OnlyRaised 9 0 s.block t.block

/-- R182: only BATCH_START, BATCH_NEXT, CFG_CLEAR and reset change the batch registers. -/
def Obligations.BatchRegistersChangeOnlyByBatchCommands : Prop :=
  ∀ (i : Instr) (s t : State), exec i s = .next t → keepsBatch i = true → runsBatchNext i = false →
    SameBatch t.block s.block

/-- R183: after a BATCH_START of n codes from identifier a, whatever else the host issues in between (no BATCH_START, no
CFG_CLEAR), the BATCH_NEXT after i others, i < n, emits the code of a + i, which parses back to a + i when its sum fits. -/
def Obligations.BatchCorrespondence : Prop :=
  ∀ (s₀ s : State) (pre : List Instr) (next : Instr), Inv s₀ → s₀.block.cfgState = .ready →
    exec .batchStart s₀ = .next s → s.block.err = 0 →
    pre.all keepsBatch = true → pre.countP runsBatchNext < s₀.block.countIn.toNat → runsBatchNext next = true →
    ∃ t, execAll (pre ++ [next]) s = some t ∧ t.block.outValid = true ∧
      t.block.idOut.toNat = s₀.block.idIn.toNat + pre.countP runsBatchNext ∧
      t.block.codeOut = genCode s₀.block.key s₀.block.alpha t.block.idOut t.block.freshOut ∧
      (sigSum s₀.block.key t.block.freshOut t.block.idOut ≤ 16383 →
        parseCode s₀.block.key s₀.block.alpha 10 t.block.codeOut = .ok (t.block.idOut, t.block.freshOut))

/-! ### PARSE -/

/-- R204, R205: PARSE while READY of 10 symbols of the Alphabet whose recomputed signature equals the signature field shows
the recovered identifier and the freshness; CODE_OUT stays 0. -/
def Obligations.ParseShowsRecoveredIdentifier : Prop :=
  ∀ (s : State) (idx : Fin 10 → SymIndex), s.block.cfgState = .ready → s.block.codeInLen = 10 →
    AlphaInjective s.block.alpha → SymbolsAre s.block.alpha s.block.codeIn idx →
    SignatureHolds s.block.key (unpackNat idx) →
    ∃ t, exec .parse s = .next t ∧ Ended .done s t ∧
      t.block.idOut.toNat = recoveredNat s.block.key (unpackNat idx) ∧
      t.block.freshOut = freshOfNat (unpackNat idx) ∧ t.block.outValid = true ∧
      (∀ k : Fin 10, t.block.codeOut[k] = 0) ∧ StatusOk t.block ∧
      t.block.errSticky = s.block.errSticky ∧ t.block.cfgState = .ready ∧
      SameTables t.block s.block ∧ SameOperands t.block s.block ∧ SameBatch t.block s.block ∧
      reads t 0x004 = (reads s 0x004 &&& 0x0000000C ||| 0x00000003)

/-- R203, R205, R255: PARSE of 10 symbols of the Alphabet whose recomputed signature differs from the signature field
reports SIGNATURE_MISMATCH and shows nothing of the code. -/
def Obligations.ParseReportsSignatureMismatch : Prop :=
  ∀ (s : State) (idx : Fin 10 → SymIndex), s.block.cfgState = .ready → s.block.codeInLen = 10 →
    AlphaInjective s.block.alpha → SymbolsAre s.block.alpha s.block.codeIn idx →
    ¬ SignatureHolds s.block.key (unpackNat idx) →
    ∃ t, exec .parse s = .next t ∧ Ended .done s t ∧ OnlyRaised 5 0 s.block t.block

/-- R253, R261: PARSE while READY reports DECODE_FORMAT: BAD_LENGTH for every length but 10, whatever the symbols; else the
lowest position whose symbol is no ALPHA entry. -/
def Obligations.ParseReportsFormatErrors : Prop :=
  ∀ s : State, s.block.cfgState = .ready →
    (s.block.codeInLen ≠ 10 →
      ∃ t, exec .parse s = .next t ∧ Ended .done s t ∧ OnlyRaised 3 0x01 s.block t.block) ∧
    (∀ k : Fin 10, s.block.codeInLen = 10 →
      (∀ j : Fin 10, j < k → ∃ x : Fin 32, s.block.alpha[x] = s.block.codeIn[j]) →
      (∀ x : Fin 32, s.block.alpha[x] ≠ s.block.codeIn[k]) →
      ∃ t, exec .parse s = .next t ∧ Ended .done s t ∧
        OnlyRaised 3 (BitVec.ofNat 8 (2 + 16 * k.val)) s.block t.block)

/-- R206: the round trip. Under distinct symbols the parse function inverts the code function exactly when the sum fits in
14 bits, and always when every row respects the capacity (REJECT). -/
def Obligations.ParseInvertsGenerate : Prop :=
  ∀ (key : KeyTable) (alpha : Alphabet) (id : Word) (f : Nibble), AlphaInjective alpha →
    parseCode key alpha 10 (genCode key alpha id f)
      = (if sigSum key f id ≤ 16383 then .ok (id, f) else .error (.signatureMismatch, 0)) ∧
    (CapacityRespected key → parseCode key alpha 10 (genCode key alpha id f) = .ok (id, f))

/-- R206 on the bus: GEN.F, then the three code words read back and written to CODE_IN with length 10, then PARSE, returns
the identifier and the freshness when the sum fits, and SIGNATURE_MISMATCH with ID_OUT 0 when it does not. -/
def Obligations.GenerateThenParseOnTheBus : Prop :=
  ∀ (s t : State) (f : Nibble), Inv s → s.block.cfgState = .ready → exec (.genF f) s = .next t →
    ∃ u, execAll [.wrCodeIn0 (reads t 0x028), .wrCodeIn1 (reads t 0x02C), .wrCodeIn2 (reads t 0x030),
        .wrCodeInLen 10, .parse] t = some u ∧
      (sigSum s.block.key f s.block.idIn ≤ 16383 →
        reads u 0x020 = s.block.idIn ∧ reads u 0x024 = f.setWidth 32 ∧ u.block.outValid = true) ∧
      (16383 < sigSum s.block.key f s.block.idIn →
        reads u 0x020 = 0 ∧ u.block.err = 5 ∧ u.block.outValid = false)

/-- R207: a change of symbol 0 or 1 (signature bits only) of a code that parses is always detected. -/
def Obligations.SignatureSymbolChangesAreDetected : Prop :=
  ∀ (key : KeyTable) (alpha : Alphabet) (str : Symbols) (id : Word) (f : Nibble) (k : Fin 10) (x : SymIndex),
    AlphaInjective alpha → parseCode key alpha 10 str = .ok (id, f) → k.val ≤ 1 →
    alpha[positionOf x] ≠ str[k] →
    parseCode key alpha 10 (str.set k.val alpha[positionOf x]) = .error (.signatureMismatch, 0)

/-- R207: a change of FRESH[3] alone, the lowest bit of symbol 2, is undetected and returns the same identifier whenever KEY
rows f and f XOR 8 are equal. -/
def Obligations.EqualRowsHideFreshnessChange : Prop :=
  ∀ (key : KeyTable) (alpha : Alphabet) (str : Symbols) (id : Word) (f : Nibble) (x : SymIndex),
    AlphaInjective alpha → parseCode key alpha 10 str = .ok (id, f) →
    str[2] = alpha[positionOf x] → key[rowOf f] = key[rowOf (f ^^^ 8)] →
    parseCode key alpha 10 (str.set 2 alpha[positionOf (x ^^^ 1)]) = .ok (id, f ^^^ 8)

/-- R208, R254: FRESH_RANGE is unreachable. -/
def Obligations.FreshRangeIsNeverReported : Prop :=
  (∀ (key : KeyTable) (alpha : Alphabet) (len : Word) (str : Symbols) (c : Byte),
    parseCode key alpha len str ≠ .error (.freshRange, c)) ∧
  ∀ (i : Instr) (s t : State), exec i s = .next t → t.block.err = 4 → s.block.err = 4

/-! ### Whole-machine rules -/

/-- R38: ERR_STICKY is cleared only by a write of 1 to STATUS bit 3 or by reset. -/
def Obligations.StickyClearedOnlyByWriteOrReset : Prop :=
  ∀ s t : State, step s = .next t → s.block.errSticky = true → t.block.errSticky = false →
    s.port.head? = some .reset ∨
      ∃ v : Word, s.port.head? = some (.access (.write 0x004 4 v)) ∧ v.getLsbD 3 = true

/-- R266: a draw is taken at most once per step, and only by GENERATE with F = 0 while READY or by BATCH_NEXT with F = 0
while READY with codes left. The counter of draws is the model's own (log 2). -/
def Obligations.DrawsAreTakenOnlyByUnforcedCommands : Prop :=
  ∀ s t : State, step s = .next t →
    (t.draws = s.draws ∨ t.draws = s.draws + 1) ∧
    (t.draws = s.draws + 1 ↔
      s.block.cfgState = .ready ∧
        (s.port.head? = some (.access (.write 0x000 4 0x00000003)) ∨
          (s.port.head? = some (.access (.write 0x000 4 0x00000006)) ∧ s.block.batchRemaining ≠ 0)))

/-- The invariant holds right after reset (R280; the policy is R10's default, the rest of the state around the block is the
model's choice: logs 1 to 4). -/
def Obligations.InvariantHoldsAtReset : Prop := Inv State.reset

/-- Every step keeps the invariant: the committed tables stay sound (R135), ERR and CAUSE keep their formats (R86, R87), the
results are those of one successful command or zero (R35, R120), no batch runs past 0xFFFFFFFF (R181), and unwritten entries
read 0 (R238). -/
def Obligations.EveryStepKeepsInvariant : Prop :=
  ∀ s t : State, Inv s → step s = .next t → Inv t

/-- R283, R97: from the reset block, LOADKEYS, LOADALPHA and CFG.COMMIT of a KeyTable and an Alphabet of distinct symbols
(rows within capacity under REJECT) make the block READY with exactly those tables and ERR = OK. -/
def Obligations.BootSequenceReachesReady : Prop :=
  ∀ (s : State) (key : KeyTable) (alpha : Alphabet), s.block = Block.reset → AlphaInjective alpha →
    (s.policy = .reject → CapacityRespected key) →
    ∃ t, execAll (loadKeys key ++ loadAlpha alpha ++ [.cfgCommit]) s = some t ∧
      t.block.cfgState = .ready ∧ t.block.key = key ∧ t.block.alpha = alpha ∧ StatusOk t.block ∧
      reads t 0x004 = 0x00000001

/-- R97: LOADCODE of 10 symbols puts them in CODE_IN in order with CODE_IN_LEN 10, and changes nothing else. -/
def Obligations.LoadCodeFillsCodeIn : Prop :=
  ∀ (s : State) (str : Symbols),
    ∃ t, execAll (loadCode str.toList) s = some t ∧
      t.block = { s.block with codeIn := str, codeInLen := 10 }
end

