-- ==== Sys2Proof/Laws/Bits.lean ====
section
/-! SUPPORT. Concatenations and fields of bit vectors as numbers, and the byte lanes of a bus word. -/

namespace Sys2Proof.Machine

/-- `a ++ b = a * 2^M + b` (R12). -/
theorem toNat_append_eq {n m : Nat} (x : BitVec n) (y : BitVec m) :
    (x ++ y).toNat = x.toNat * 2 ^ m + y.toNat := by
  rw [BitVec.toNat_append, Nat.shiftLeft_eq, ← Nat.shiftLeft_eq, Nat.shiftLeft_add_eq_or_of_lt y.isLt]

/-- A field as a number (R12). -/
theorem toNat_field {n : Nat} (x : BitVec n) (start len : Nat) :
    (x.extractLsb' start len).toNat = x.toNat / 2 ^ start % 2 ^ len := by
  rw [BitVec.extractLsb'_toNat, Nat.shiftRight_eq_div_pow]

theorem toNat_ofLanes (b0 b1 b2 b3 : Byte) :
    (ofLanes b0 b1 b2 b3).toNat = b3.toNat * 2 ^ 24 + b2.toNat * 2 ^ 16 + b1.toNat * 2 ^ 8 + b0.toNat := by
  simp only [ofLanes, toNat_append_eq]; omega

theorem toNat_lane (v : Word) (j : Fin 4) : (lane v j).toNat = v.toNat / 2 ^ (8 * j.val) % 2 ^ 8 :=
  toNat_field v _ _

@[simp] theorem lane_ofLanes_zero (b0 b1 b2 b3 : Byte) : lane (ofLanes b0 b1 b2 b3) 0 = b0 := by
  apply BitVec.eq_of_toNat_eq; rw [toNat_lane, toNat_ofLanes]; simp; omega
@[simp] theorem lane_ofLanes_one (b0 b1 b2 b3 : Byte) : lane (ofLanes b0 b1 b2 b3) 1 = b1 := by
  apply BitVec.eq_of_toNat_eq; rw [toNat_lane, toNat_ofLanes]; simp; omega
@[simp] theorem lane_ofLanes_two (b0 b1 b2 b3 : Byte) : lane (ofLanes b0 b1 b2 b3) 2 = b2 := by
  apply BitVec.eq_of_toNat_eq; rw [toNat_lane, toNat_ofLanes]; simp; omega
@[simp] theorem lane_ofLanes_three (b0 b1 b2 b3 : Byte) : lane (ofLanes b0 b1 b2 b3) 3 = b3 := by
  apply BitVec.eq_of_toNat_eq; rw [toNat_lane, toNat_ofLanes]; simp; omega

/-- A bus word is made of its lanes (R63). -/
theorem ofLanes_lane (v : Word) : ofLanes (lane v 0) (lane v 1) (lane v 2) (lane v 3) = v := by
  apply BitVec.eq_of_toNat_eq
  have := v.isLt
  rw [toNat_ofLanes]
  simp only [toNat_lane]
  simp
  omega

/-- After a write of a code word, that word reads as written; word 2 only its low half (R234). -/
theorem codeWord_setCodeWord_zero (sym : Symbols) (v : Word) : codeWord (setCodeWord sym 0 v) 0 = v := by
  simp [codeWord, setCodeWord, ofLanes_lane]
theorem codeWord_setCodeWord_one (sym : Symbols) (v : Word) : codeWord (setCodeWord sym 1 v) 1 = v := by
  simp [codeWord, setCodeWord, ofLanes_lane]
theorem codeWord_setCodeWord_two (sym : Symbols) (v : Word) :
    codeWord (setCodeWord sym 2 v) 2 = v &&& 0x0000FFFF := by
  apply BitVec.eq_of_toNat_eq
  have := v.isLt
  simp [codeWord, setCodeWord, toNat_ofLanes, toNat_lane]
  rw [show (65535 : Nat) = 2 ^ 16 - 1 from rfl, Nat.and_two_pow_sub_one_eq_mod]
  omega

/-- A write of one code word leaves the other two (R234). -/
theorem codeWord_setCodeWord_ne (sym : Symbols) {n m : Fin 3} (v : Word) (h : m ≠ n) :
    codeWord (setCodeWord sym n v) m = codeWord sym m := by
  fin_cases n <;> fin_cases m <;> simp_all [codeWord, setCodeWord]

end Sys2Proof.Machine
end

