-- ==== Sys2Proof/Laws/Datapath.lean ====
section
/-! SUPPORT. Laws of the datapath's building blocks: nibbles, payload fields, symbol
indices, and the symbol decoder. -/

namespace Sys2Proof.Machine
open Sys2Proof.Safety

/-! ### Nibbles, payloads and indices as numbers -/

theorem toNat_ofNibbles (n : Fin 8 → Nibble) :
    (ofNibbles n).toNat =
      (n 0).toNat * 2 ^ 28 + (n 1).toNat * 2 ^ 24 + (n 2).toNat * 2 ^ 20 + (n 3).toNat * 2 ^ 16 +
        (n 4).toNat * 2 ^ 12 + (n 5).toNat * 2 ^ 8 + (n 6).toNat * 2 ^ 4 + (n 7).toNat := by
  simp only [ofNibbles, toNat_append_eq]; omega

theorem toNat_nib (x : Word) (i : Fin 8) : (nib x i).toNat = nibbleNat x.toNat i.val := by
  rw [nib, toNat_field, nibbleNat, show (16 : Nat) = 2 ^ 4 from rfl, ← Nat.pow_mul]
  congr 3; omega

theorem toNat_pack (s : Sig) (f : Nibble) (o : Word) :
    (pack s f o).toNat = s.toNat * 2 ^ 36 + f.toNat * 2 ^ 32 + o.toNat := by
  simp only [pack, toNat_append_eq]; omega

theorem toNat_symIdx (p : Payload) (k : Fin 10) : (symIdx p k).toNat = symbolNat p.toNat k.val := by
  rw [symIdx, toNat_field]; rfl

theorem toNat_unpack (idx : Fin 10 → SymIndex) :
    (unpack idx).toNat =
      (idx 0).toNat * 2 ^ 45 + (idx 1).toNat * 2 ^ 40 + (idx 2).toNat * 2 ^ 35 + (idx 3).toNat * 2 ^ 30 +
        (idx 4).toNat * 2 ^ 25 + (idx 5).toNat * 2 ^ 20 + (idx 6).toNat * 2 ^ 15 + (idx 7).toNat * 2 ^ 10 +
        (idx 8).toNat * 2 ^ 5 + (idx 9).toNat := by
  simp only [unpack, toNat_append_eq]; omega

/-! ### Sums, written out -/

/-- The sum of a row's entries (R134). -/
theorem rowSum_eq (row : KeyRow) :
    rowSum row = row[0].toNat + row[1].toNat + row[2].toNat + row[3].toNat + row[4].toNat + row[5].toNat
      + row[6].toNat + row[7].toNat := by
  simp [rowSum, columns]; omega

/-- The weighted nibble sum of a row (R151). -/
theorem rowSigSum_eq (row : KeyRow) (id : Word) :
    rowSigSum row id =
      (nib id 0).toNat * row[0].toNat + (nib id 1).toNat * row[1].toNat + (nib id 2).toNat * row[2].toNat
        + (nib id 3).toNat * row[3].toNat + (nib id 4).toNat * row[4].toNat + (nib id 5).toNat * row[5].toNat
        + (nib id 6).toNat * row[6].toNat + (nib id 7).toNat * row[7].toNat := by
  simp [rowSigSum, columns]; omega

/-- A sum over the 8 columns as numbers. -/
theorem sum_range_eight (g : Nat → Nat) :
    ((List.range 8).map g).sum = g 0 + g 1 + g 2 + g 3 + g 4 + g 5 + g 6 + g 7 := by
  simp only [List.range, List.range.loop, List.map, List.sum_cons, List.sum_nil]; omega

/-- A sum over the 10 positions of a code. -/
theorem sum_finRange_ten (g : Fin 10 → Nat) :
    ((List.finRange 10).map g).sum = g 0 + g 1 + g 2 + g 3 + g 4 + g 5 + g 6 + g 7 + g 8 + g 9 := by
  rw [show List.finRange 10 = [0, 1, 2, 3, 4, 5, 6, 7, 8, 9] from rfl]
  simp only [List.map, List.sum_cons, List.sum_nil]; omega

/-- The unpacked payload as a number (R201). -/
theorem toNat_unpack_eq_unpackNat (idx : Fin 10 → SymIndex) : (unpack idx).toNat = unpackNat idx := by
  rw [toNat_unpack, unpackNat, sum_finRange_ten]
  simp only [show (0 : Fin 10).val = 0 from rfl, show (1 : Fin 10).val = 1 from rfl,
    show (2 : Fin 10).val = 2 from rfl, show (3 : Fin 10).val = 3 from rfl, show (4 : Fin 10).val = 4 from rfl,
    show (5 : Fin 10).val = 5 from rfl, show (6 : Fin 10).val = 6 from rfl, show (7 : Fin 10).val = 7 from rfl,
    show (8 : Fin 10).val = 8 from rfl, show (9 : Fin 10).val = 9 from rfl, Nat.reduceMul, Nat.reduceSub,
    Nat.reducePow, Nat.mul_one]

/-! ### Inverses -/

theorem nib_ofNibbles (n : Fin 8 → Nibble) (i : Fin 8) : nib (ofNibbles n) i = n i := by
  apply BitVec.eq_of_toNat_eq
  rw [toNat_nib, toNat_ofNibbles, nibbleNat]
  have h0 := (n 0).isLt; have h1 := (n 1).isLt; have h2 := (n 2).isLt; have h3 := (n 3).isLt
  have h4 := (n 4).isLt; have h5 := (n 5).isLt; have h6 := (n 6).isLt; have h7 := (n 7).isLt
  fin_cases i <;>
    simp only [Fin.reduceFinMk, Nat.reducePow, Nat.reduceSub, Fin.zero_eta, Fin.isValue, Fin.mk_one] <;> omega

theorem ofNibbles_nib (x : Word) : ofNibbles (nib x) = x := by
  apply BitVec.eq_of_toNat_eq
  have := x.isLt
  rw [toNat_ofNibbles]
  simp only [toNat_nib, nibbleNat]
  simp
  omega

/-- Two words with the same nibbles are equal. -/
theorem eq_of_nib_eq {x y : Word} (h : ∀ i, nib x i = nib y i) : x = y := by
  rw [← ofNibbles_nib x, ← ofNibbles_nib y, funext h]

theorem sigBits_pack (s : Sig) (f : Nibble) (o : Word) : sigBits (pack s f o) = s := by
  apply BitVec.eq_of_toNat_eq
  rw [sigBits, toNat_field, toNat_pack]; omega

theorem freshBits_pack (s : Sig) (f : Nibble) (o : Word) : freshBits (pack s f o) = f := by
  apply BitVec.eq_of_toNat_eq
  rw [freshBits, toNat_field, toNat_pack]; omega

theorem obfBits_pack (s : Sig) (f : Nibble) (o : Word) : obfBits (pack s f o) = o := by
  apply BitVec.eq_of_toNat_eq
  rw [obfBits, toNat_field, toNat_pack]; omega

theorem pack_fields (p : Payload) : pack (sigBits p) (freshBits p) (obfBits p) = p := by
  apply BitVec.eq_of_toNat_eq
  have := p.isLt
  rw [toNat_pack, sigBits, freshBits, obfBits, toNat_field, toNat_field, toNat_field]; omega

theorem unpack_symIdx (p : Payload) : unpack (symIdx p) = p := by
  apply BitVec.eq_of_toNat_eq
  have := p.isLt
  rw [toNat_unpack]
  simp only [symIdx, toNat_field]
  simp
  omega

theorem symIdx_unpack (idx : Fin 10 → SymIndex) (k : Fin 10) : symIdx (unpack idx) k = idx k := by
  apply BitVec.eq_of_toNat_eq
  rw [toNat_symIdx, toNat_unpack, symbolNat]
  have h0 := (idx 0).isLt; have h1 := (idx 1).isLt; have h2 := (idx 2).isLt; have h3 := (idx 3).isLt
  have h4 := (idx 4).isLt; have h5 := (idx 5).isLt; have h6 := (idx 6).isLt; have h7 := (idx 7).isLt
  have h8 := (idx 8).isLt; have h9 := (idx 9).isLt
  fin_cases k <;>
    simp only [Fin.reduceFinMk, Nat.reducePow, Nat.reduceSub, Nat.reduceMul, Fin.zero_eta, Fin.isValue, Fin.mk_one]
      <;> omega

/-! ### The symbol decoder -/

theorem ofNat_positionOf (x : SymIndex) : BitVec.ofNat 5 (positionOf x).val = x := by
  simp [positionOf]

theorem positionOf_ofNat (j : Fin 32) : positionOf (BitVec.ofNat 5 j.val) = j := by
  ext; simp [positionOf]

/-- What the symbol decoder can answer: an index whose symbol is the given byte, or none, and then no entry equals it. -/
theorem symIndex_cases (alpha : Alphabet) (s : Byte) :
    (∃ x : SymIndex, symIndex alpha s = some x ∧ alpha[positionOf x] = s) ∨
      (symIndex alpha s = none ∧ ∀ j : Fin 32, alpha[j] ≠ s) := by
  unfold symIndex
  cases h : (List.finRange 32).find? fun j => alpha[j] == s with
  | none =>
    right
    exact ⟨rfl, fun j => by simpa using List.find?_eq_none.mp h j (List.mem_finRange j)⟩
  | some j =>
    left
    refine ⟨BitVec.ofNat 5 j.val, rfl, ?_⟩
    simp only [positionOf_ofNat]
    simpa using List.find?_some h

theorem symIndex_isNone_iff (alpha : Alphabet) (s : Byte) :
    (symIndex alpha s).isNone = true ↔ ∀ j : Fin 32, alpha[j] ≠ s := by
  rcases symIndex_cases alpha s with ⟨x, h, hx⟩ | ⟨h, hn⟩
  · simp only [h, Option.isNone_some, Bool.false_eq_true, false_iff, not_forall, not_not]
    exact ⟨positionOf x, hx⟩
  · simp only [h, Option.isNone_none, true_iff]; exact hn

/-- Under distinct symbols the decoder inverts the Alphabet (R200). -/
theorem symIndex_alpha {alpha : Alphabet} (inj : AlphaInjective alpha) (x : SymIndex) :
    symIndex alpha alpha[positionOf x] = some x := by
  rcases symIndex_cases alpha alpha[positionOf x] with ⟨y, h, hy⟩ | ⟨_, hn⟩
  · rw [h, ← ofNat_positionOf y, inj _ _ hy, ofNat_positionOf]
  · exact absurd rfl (hn _)

/-- No symbol is unknown exactly when every symbol is some Alphabet entry. -/
theorem firstUnknown_eq_none_iff (alpha : Alphabet) (str : Symbols) :
    firstUnknown alpha str = none ↔ ∀ k : Fin 10, ∃ j : Fin 32, alpha[j] = str[k] := by
  unfold firstUnknown
  rw [List.find?_eq_none]
  constructor
  · intro h k
    have := h k (List.mem_finRange k)
    rw [symIndex_isNone_iff] at this
    simpa using this
  · intro h k _
    rw [symIndex_isNone_iff]
    simpa using h k

/-- The symbols of known indices unpack to their payload (R201). -/
theorem payloadOf_symbols {alpha : Alphabet} (inj : AlphaInjective alpha) {str : Symbols} {idx : Fin 10 → SymIndex}
    (h : SymbolsAre alpha str idx) : payloadOf alpha str = unpack idx := by
  unfold payloadOf
  congr 1
  funext k
  rw [h k, symIndex_alpha inj]; rfl

theorem encodeSymbols_get (alpha : Alphabet) (p : Payload) (k : Fin 10) :
    (encodeSymbols alpha p)[k] = alpha[positionOf (symIdx p k)] := by
  simp [encodeSymbols]

/-- Encoded symbols are all known and carry their payload back (R156, R201). -/
theorem payloadOf_encodeSymbols {alpha : Alphabet} (inj : AlphaInjective alpha) (p : Payload) :
    payloadOf alpha (encodeSymbols alpha p) = p := by
  rw [payloadOf_symbols inj (idx := symIdx p) (fun k => encodeSymbols_get alpha p k), unpack_symIdx]

theorem firstUnknown_encodeSymbols (alpha : Alphabet) (p : Payload) :
    firstUnknown alpha (encodeSymbols alpha p) = none := by
  rw [firstUnknown_eq_none_iff]
  exact fun k => ⟨_, (encodeSymbols_get alpha p k).symm⟩

/-! ### The parse function, case by case -/

theorem parseCode_badLength (key : KeyTable) (alpha : Alphabet) {len : Word} (str : Symbols) (h : len ≠ 10) :
    parseCode key alpha len str = .error (.decodeFormat, 0x01) := by
  unfold parseCode; rw [if_pos h]

theorem parseCode_unknown (key : KeyTable) {alpha : Alphabet} {str : Symbols} {k : Fin 10}
    (h : firstUnknown alpha str = some k) :
    parseCode key alpha 10 str = .error (.decodeFormat, unknownSymbolCause k) := by
  unfold parseCode; rw [if_neg (by simp), h]

theorem parseCode_known (key : KeyTable) {alpha : Alphabet} {str : Symbols}
    (h : firstUnknown alpha str = none) :
    parseCode key alpha 10 str = parsePayload key (payloadOf alpha str) := by
  unfold parseCode; rw [if_neg (by simp), h]

/-- The freshness bound is never exceeded, so the payload's checks come down to the signature. -/
theorem parsePayload_eq (key : KeyTable) (p : Payload) :
    parsePayload key p =
      if signaturePasses key p then .ok (recoveredId key p, freshBits p) else .error (.signatureMismatch, 0) := by
  unfold parsePayload
  rw [if_neg (by have := (freshBits p).isLt; omega)]

end Sys2Proof.Machine
end

