-- ==== Sys2Proof/Laws/Tables.lean ====
section
/-! SUPPORT. Laws of the register files and of the words read through the bus. -/

namespace Sys2Proof.Machine

/-- Admission as a proposition (R61). -/
theorem admitted_iff (off n : Nat) : admitted off n = true ↔ n = 4 ∧ off % 4 = 0 ∧ off ≤ 0x3FC := by
  simp only [admitted, Bool.and_eq_true, beq_iff_eq, decide_eq_true_eq, and_assoc]

/-- Reading a 16 x 8 register file after setting one entry. -/
theorem setEntry_get {α : Type} (t : Vector (Vector α 8) 16) (r r' : Fin 16) (c c' : Fin 8) (x : α) :
    ((setEntry t r c x)[r'])[c'] = if r' = r ∧ c' = c then x else (t[r'])[c'] := by
  unfold setEntry
  by_cases hr : r' = r
  · subst hr
    by_cases hc : c' = c
    · subst hc; simp
    · have : c.val ≠ c'.val := fun h => hc (Fin.ext h.symm)
      simp [hc, this]
  · have : r.val ≠ r'.val := fun h => hr (Fin.ext h.symm)
    simp [hr, this]

/-- Two 16 x 8 register files with the same entries are equal. -/
theorem table_ext {α : Type} {t u : Vector (Vector α 8) 16}
    (h : ∀ (r : Fin 16) (c : Fin 8), (t[r])[c] = (u[r])[c]) : t = u := by
  ext r hr c hc
  exact h ⟨r, hr⟩ ⟨c, hc⟩

theorem mem_columns (c : Fin 8) : c ∈ columns := by revert c; decide

theorem mem_rows (r : Fin 16) : r ∈ rows := by revert r; decide

theorem keyRowOf_keyOffset (r : Fin 16) (c : Fin 8) (h : inKeyWindow (keyOffset r c)) :
    keyRowOf (keyOffset r c) h = r := by
  ext; simp only [keyRowOf, keyOffset]; omega

theorem keyColOf_keyOffset (r : Fin 16) (c : Fin 8) : keyColOf (keyOffset r c) = c := by
  ext; simp only [keyColOf, keyOffset]; omega

theorem inKeyWindow_keyOffset (r : Fin 16) (c : Fin 8) : inKeyWindow (keyOffset r c) := by
  simp only [inKeyWindow, keyOffset]; omega

theorem alphaIndexOf_alphaOffset (j : Fin 32) (h : inAlphaWindow (alphaOffset j)) :
    alphaIndexOf (alphaOffset j) h = j := by
  ext; simp only [alphaIndexOf, alphaOffset]; omega

theorem inAlphaWindow_alphaOffset (j : Fin 32) : inAlphaWindow (alphaOffset j) := by
  simp only [inAlphaWindow, alphaOffset]; omega

/-- The offset of an aligned place in the KEY window is that of its row and column (R89). -/
theorem keyOffset_keyRowOf {off : Nat} (h : inKeyWindow off) (aligned : off % 4 = 0) :
    keyOffset (keyRowOf off h) (keyColOf off) = off := by
  simp only [keyOffset, keyRowOf, keyColOf]
  obtain ⟨h1, h2⟩ := h
  omega

/-- The offset of an aligned place in the ALPHA window is that of its index (R90). -/
theorem alphaOffset_alphaIndexOf {off : Nat} (h : inAlphaWindow off) (aligned : off % 4 = 0) :
    alphaOffset (alphaIndexOf off h) = off := by
  simp only [alphaOffset, alphaIndexOf]
  obtain ⟨h1, h2⟩ := h
  omega

/-- Every admitted offset is one of the 16 named registers, an unmapped place, a KEY entry or an ALPHA entry (R80). -/
theorem offset_cases {off : Nat} (h : admitted off 4 = true) :
    (∃ k : Fin 16, off = 4 * k.val) ∨ ((0x040 ≤ off ∧ off ≤ 0x0FC) ∨ (0x380 ≤ off ∧ off ≤ 0x3FC)) ∨
      (∃ r c, off = keyOffset r c) ∨ ∃ j, off = alphaOffset j := by
  rw [admitted_iff] at h
  obtain ⟨_, aligned, le⟩ := h
  rcases Nat.lt_or_ge off 0x040 with h1 | h1
  · exact .inl ⟨⟨off / 4, by omega⟩, by simp only; omega⟩
  rcases Nat.lt_or_ge off 0x100 with h2 | h2
  · exact .inr (.inl (.inl ⟨h1, by omega⟩))
  rcases Nat.lt_or_ge off 0x300 with h3 | h3
  · have hk : inKeyWindow off := ⟨h2, by omega⟩
    exact .inr (.inr (.inl ⟨_, _, (keyOffset_keyRowOf hk aligned).symm⟩))
  rcases Nat.lt_or_ge off 0x380 with h4 | h4
  · have ha : inAlphaWindow off := ⟨h3, by omega⟩
    exact .inr (.inr (.inr ⟨_, (alphaOffset_alphaIndexOf ha aligned).symm⟩))
  · exact .inr (.inl (.inr ⟨h4, le⟩))

/-- The 16 named registers, in the order of the map (R80, R230). -/
theorem readReg_named (p : SigOvfPolicy) (b : Block) (k : Fin 16) :
    readReg p b (4 * k.val) =
      ([0, statusWord b, b.idIn, b.countIn, b.codeInLen, codeWord b.codeIn 0, codeWord b.codeIn 1, codeWord b.codeIn 2,
        b.idOut, b.freshOut.setWidth 32, codeWord b.codeOut 0, codeWord b.codeOut 1, codeWord b.codeOut 2,
        b.batchNextId, b.batchRemaining, paramsWord p] : List Word)[k.val]'k.isLt := by
  fin_cases k <;> rfl

/-- Outside the scalar registers, a read in the KEY window is the entry's (R230, R238). -/
theorem readReg_keyWindow (p : SigOvfPolicy) (b : Block) {off : Nat} (h : inKeyWindow off) :
    readReg p b off = ((b.key[keyRowOf off h])[keyColOf off]).setWidth 32 := by
  obtain ⟨h1, h2⟩ := h
  unfold readReg
  repeat rw [if_neg (by omega)]
  rw [dif_pos ⟨h1, h2⟩]

/-- A read in the ALPHA window is the symbol's (R230, R238). -/
theorem readReg_alphaWindow (p : SigOvfPolicy) (b : Block) {off : Nat} (h : inAlphaWindow off) :
    readReg p b off = (b.alpha[alphaIndexOf off h]).setWidth 32 := by
  obtain ⟨h1, h2⟩ := h
  unfold readReg
  repeat rw [if_neg (by omega)]
  rw [dif_neg (by simp only [inKeyWindow]; omega), dif_pos ⟨h1, h2⟩]

/-- A KEY entry reads zero-extended (R238). -/
theorem readReg_keyOffset (p : SigOvfPolicy) (b : Block) (r : Fin 16) (c : Fin 8) :
    readReg p b (keyOffset r c) = ((b.key[r])[c]).setWidth 32 := by
  rw [readReg_keyWindow _ _ (inKeyWindow_keyOffset r c)]
  simp only [keyRowOf_keyOffset, keyColOf_keyOffset]

/-- An ALPHA entry reads zero-extended (R238). -/
theorem readReg_alphaOffset (p : SigOvfPolicy) (b : Block) (j : Fin 32) :
    readReg p b (alphaOffset j) = (b.alpha[j]).setWidth 32 := by
  rw [readReg_alphaWindow _ _ (inAlphaWindow_alphaOffset j)]
  simp only [alphaIndexOf_alphaOffset]

/-- A read of an unmapped offset is 0 (R73). -/
theorem readReg_unmapped (p : SigOvfPolicy) (b : Block) {off : Nat}
    (h : (0x040 ≤ off ∧ off ≤ 0x0FC) ∨ (0x380 ≤ off ∧ off ≤ 0x3FC)) : readReg p b off = 0 := by
  unfold readReg
  repeat rw [if_neg (by omega)]
  rw [dif_neg (by simp only [inKeyWindow]; omega), dif_neg (by simp only [inAlphaWindow]; omega)]

theorem ite_branches {α : Type} {c : Prop} [Decidable c] {x x' y y' : α} (h : c → x = x') (h' : ¬c → y = y') :
    (if c then x else y) = if c then x' else y' := by
  split
  · exact h ‹_›
  · exact h' ‹_›

theorem dite_branches {α : Type} {c : Prop} [Decidable c] {x x' : c → α} {y y' : ¬c → α}
    (h : ∀ hc, x hc = x' hc) (h' : ∀ hc, y hc = y' hc) : dite c x y = dite c x' y' := by
  split
  · exact h _
  · exact h' _

/-- Reads depend on the policy and on the fields that have a register (R230): blocks that agree on those read alike. -/
theorem readReg_congr (p : SigOvfPolicy) {a b : Block} (off : Nat)
    (status : off = 0x004 → statusWord a = statusWord b)
    (idIn : off = 0x008 → a.idIn = b.idIn) (countIn : off = 0x00C → a.countIn = b.countIn)
    (codeInLen : off = 0x010 → a.codeInLen = b.codeInLen)
    (codeIn : ∀ n : Fin 3, off = 0x014 + 4 * n.val → codeWord a.codeIn n = codeWord b.codeIn n)
    (idOut : off = 0x020 → a.idOut = b.idOut) (freshOut : off = 0x024 → a.freshOut = b.freshOut)
    (codeOut : ∀ n : Fin 3, off = 0x028 + 4 * n.val → codeWord a.codeOut n = codeWord b.codeOut n)
    (batchNextId : off = 0x034 → a.batchNextId = b.batchNextId)
    (batchRemaining : off = 0x038 → a.batchRemaining = b.batchRemaining)
    (key : ∀ h : inKeyWindow off, (a.key[keyRowOf off h])[keyColOf off] = (b.key[keyRowOf off h])[keyColOf off])
    (alpha : ∀ h : inAlphaWindow off, a.alpha[alphaIndexOf off h] = b.alpha[alphaIndexOf off h]) :
    readReg p a off = readReg p b off := by
  unfold readReg
  exact ite_branches (fun _ => rfl) fun _ =>
    ite_branches status fun _ =>
    ite_branches idIn fun _ =>
    ite_branches countIn fun _ =>
    ite_branches codeInLen fun _ =>
    ite_branches (codeIn 0) fun _ =>
    ite_branches (codeIn 1) fun _ =>
    ite_branches (codeIn 2) fun _ =>
    ite_branches idOut fun _ =>
    ite_branches (fun h => congrArg _ (freshOut h)) fun _ =>
    ite_branches (codeOut 0) fun _ =>
    ite_branches (codeOut 1) fun _ =>
    ite_branches (codeOut 2) fun _ =>
    ite_branches batchNextId fun _ =>
    ite_branches batchRemaining fun _ =>
    ite_branches (fun _ => rfl) fun _ =>
    dite_branches (fun h => congrArg _ (key h)) fun _ =>
    dite_branches (fun h => congrArg _ (alpha h)) fun _ => rfl

/-- Each bit of the configuration check's CAUSE (R132). -/
theorem configCheck_getLsbD (p : SigOvfPolicy) (b : Block) (i : Nat) :
    (configCheck p b).getLsbD i =
      if i = 0 then keyMissing b else if i = 1 then alphaMissing b else if i = 2 then alphaDup b
      else if i = 3 then capacityCause p b else if i = 4 then b.keyRangeErr else if i = 5 then b.alphaRangeErr
      else false := by
  unfold configCheck
  simp only [BitVec.getLsbD_append, BitVec.getLsbD_ofBool]
  rcases Nat.lt_or_ge i 8 with h | h
  · interval_cases i <;> simp
  · repeat rw [if_neg (by omega)]
    simp

/-- A STATUS word is determined by its bits. -/
theorem statusWord_eq {b : Block} {w : Word} (h : ∀ i, i < 32 → (statusWord b).getLsbD i = w.getLsbD i) :
    statusWord b = w := BitVec.eq_of_getLsbD_eq h

/-- Each bit of the STATUS word (R85). -/
theorem statusWord_getLsbD (b : Block) (i : Nat) :
    (statusWord b).getLsbD i =
      if i = 0 then readyFlag b else if i = 1 then b.outValid else if i = 2 then batchActive b
      else if i = 3 then b.errSticky else if i < 8 then b.err.getLsbD (i - 4)
      else b.cause.getLsbD (i - 8) := by
  unfold statusWord
  simp only [BitVec.getLsbD_setWidth, BitVec.getLsbD_append, BitVec.getLsbD_ofBool]
  rcases Nat.lt_or_ge i 16 with h | h
  · interval_cases i <;> simp
  · have : b.cause.getLsbD (i - 8) = false := BitVec.getLsbD_of_ge _ _ (by omega)
    simp only [show i - 1 - 1 - 1 - 1 - 4 = i - 8 by omega, this]
    repeat rw [if_neg (by omega)]
    simp

end Sys2Proof.Machine
end

