-- ==== Sys2Proof/Laws/Decode.lean ====
section
/-! SUPPORT. Laws of the decoder: a command word from its fields, and what each access decodes to. -/

namespace Sys2Proof
open Sys2Proof.Machine

/-! ### Command words -/

theorem toNat_opField (w : Word) : (opField w).toNat = w.toNat % 16 := by
  rw [opField, toNat_field]; simp

theorem toNat_freshField (w : Word) : (freshField w).toNat = w.toNat / 256 % 16 := by
  rw [freshField, toNat_field]; rfl

theorem forceField_eq (w : Word) : forceField w = decide (w.toNat / 16 % 2 = 1) := by
  unfold forceField
  rw [BitVec.getLsbD, Nat.testBit_eq_decide_div_mod_eq]

/-- A word with its reserved bits clear is made of OP, F and FRESH (R81). -/
theorem toNat_of_reservedClear {w : Word} (h : reservedClear w = true) :
    w.toNat = w.toNat % 16 + 16 * (w.toNat / 16 % 2) + 256 * (w.toNat / 256 % 16) := by
  simp only [reservedClear, Bool.and_eq_true, beq_iff_eq] at h
  obtain ⟨h1, h2⟩ := h
  have h1 := congrArg BitVec.toNat h1
  have h2 := congrArg BitVec.toNat h2
  rw [toNat_field] at h1 h2
  simp at h1 h2
  have := w.isLt
  omega

/-! ### Accesses -/

/-- What an access that decodes to an instruction can be: an admitted read, an access that is not admitted, or an admitted
write with a row. -/
theorem decodeAccess_ok_cases {a : BusAccess} {i : Instr} (h : decodeAccess a = .ok i) :
    (∃ off, a = .read off 4 ∧ admitted off 4 = true ∧ i = .rd off) ∨
      (a.isAdmitted = false ∧ i = .busError a) ∨
      (∃ off v, a = .write off 4 v ∧ admitted off 4 = true ∧ decodeWrite off v = .ok i) := by
  cases a with
  | read off n =>
    simp only [decodeAccess] at h
    split at h <;> rename_i ha
    · cases h
      obtain rfl := ((admitted_iff _ _).mp ha).1
      exact .inl ⟨off, rfl, ha, rfl⟩
    · cases h
      exact .inr (.inl ⟨by simpa [BusAccess.isAdmitted] using ha, rfl⟩)
  | write off n v =>
    simp only [decodeAccess] at h
    split at h <;> rename_i ha
    · obtain rfl := ((admitted_iff _ _).mp ha).1
      exact .inr (.inr ⟨off, v, rfl, ha, h⟩)
    · cases h
      exact .inr (.inl ⟨by simpa [BusAccess.isAdmitted] using ha, rfl⟩)

/-- Which row an admitted write with a row is, by its offset (R80). -/
theorem decodeWrite_ok_cases {off : Nat} {v : Word} {i : Instr} (h : decodeWrite off v = .ok i) :
    (off = 0x000 ∧ i = .wrCmd v) ∨ (off = 0x004 ∧ i = .wrStatus v) ∨ (off = 0x008 ∧ i = .wrIdIn v) ∨
      (off = 0x00C ∧ i = .wrCountIn v) ∨ (off = 0x010 ∧ i = .wrCodeInLen v) ∨ (off = 0x014 ∧ i = .wrCodeIn0 v) ∨
      (off = 0x018 ∧ i = .wrCodeIn1 v) ∨ (off = 0x01C ∧ i = .wrCodeIn2 v) ∨
      (∃ hk : inKeyWindow off, i = .wrKey (keyRowOf off hk) (keyColOf off) v) ∨
      (∃ ha : inAlphaWindow off, i = .wrAlpha (alphaIndexOf off ha) v) := by
  unfold decodeWrite at h
  split_ifs at h with h0 h1 h2 h3 h4 h5 h6 h7 h8 h9 <;>
    simp only [Except.ok.injEq] at h <;> subst h
  · exact .inl ⟨h0, rfl⟩
  · exact .inr (.inl ⟨h1, rfl⟩)
  · exact .inr (.inr (.inl ⟨h2, rfl⟩))
  · exact .inr (.inr (.inr (.inl ⟨h3, rfl⟩)))
  · exact .inr (.inr (.inr (.inr (.inl ⟨h4, rfl⟩))))
  · exact .inr (.inr (.inr (.inr (.inr (.inl ⟨h5, rfl⟩)))))
  · exact .inr (.inr (.inr (.inr (.inr (.inr (.inl ⟨h6, rfl⟩))))))
  · exact .inr (.inr (.inr (.inr (.inr (.inr (.inr (.inl ⟨h7, rfl⟩)))))))
  · exact .inr (.inr (.inr (.inr (.inr (.inr (.inr (.inr (.inl ⟨h8, rfl⟩))))))))
  · exact .inr (.inr (.inr (.inr (.inr (.inr (.inr (.inr (.inr ⟨h9, rfl⟩))))))))

end Sys2Proof
end

