-- ==== Sys2Proof/Laws/State.lean ====
section
/-! SUPPORT. One lemma per field per update of the state, each true by unfolding, so that no later proof unfolds a
record update. -/

namespace Sys2Proof.Machine

/-! ### Updates of the whole state -/

@[simp] theorem onBlock_block (f : Block → Block) (s : State) : (onBlock f s).block = f s.block := rfl
@[simp] theorem onBlock_policy (f : Block → Block) (s : State) : (onBlock f s).policy = s.policy := rfl
@[simp] theorem onBlock_port (f : Block → Block) (s : State) : (onBlock f s).port = s.port := rfl
@[simp] theorem onBlock_response (f : Block → Block) (s : State) : (onBlock f s).response = s.response := rfl
@[simp] theorem onBlock_draws (f : Block → Block) (s : State) : (onBlock f s).draws = s.draws := rfl

@[simp] theorem raiseIn_block (e : ErrCode) (c : Byte) (s : State) : (raiseIn e c s).block = raise e c s.block := rfl
@[simp] theorem raiseIn_policy (e : ErrCode) (c : Byte) (s : State) : (raiseIn e c s).policy = s.policy := rfl
@[simp] theorem raiseIn_port (e : ErrCode) (c : Byte) (s : State) : (raiseIn e c s).port = s.port := rfl
@[simp] theorem raiseIn_response (e : ErrCode) (c : Byte) (s : State) : (raiseIn e c s).response = s.response := rfl
@[simp] theorem raiseIn_draws (e : ErrCode) (c : Byte) (s : State) : (raiseIn e c s).draws = s.draws := rfl

@[simp] theorem finish_block (r : Response) (s : State) : (finish r s).block = s.block := rfl
@[simp] theorem finish_policy (r : Response) (s : State) : (finish r s).policy = s.policy := rfl
@[simp] theorem finish_port (r : Response) (s : State) : (finish r s).port = s.port.tail := rfl
@[simp] theorem finish_response (r : Response) (s : State) : (finish r s).response = r := rfl
@[simp] theorem finish_draws (r : Response) (s : State) : (finish r s).draws = s.draws := rfl

@[simp] theorem takeReset_block (s : State) : (takeReset s).block = Block.reset := rfl
@[simp] theorem takeReset_policy (s : State) : (takeReset s).policy = s.policy := rfl
@[simp] theorem takeReset_port (s : State) : (takeReset s).port = s.port.tail := rfl
@[simp] theorem takeReset_response (s : State) : (takeReset s).response = s.response := rfl
@[simp] theorem takeReset_draws (s : State) : (takeReset s).draws = s.draws := rfl

@[simp] theorem idle_block (s : State) : (idle s).block = s.block := rfl
@[simp] theorem idle_policy (s : State) : (idle s).policy = s.policy := rfl
@[simp] theorem idle_port (s : State) : (idle s).port = s.port := rfl
@[simp] theorem idle_response (s : State) : (idle s).response = s.response := rfl
@[simp] theorem idle_draws (s : State) : (idle s).draws = s.draws := rfl

@[simp] theorem drawFresh_snd_block (s : State) : ((drawFresh s).2).block = s.block := rfl
@[simp] theorem drawFresh_snd_policy (s : State) : ((drawFresh s).2).policy = s.policy := rfl
@[simp] theorem drawFresh_snd_port (s : State) : ((drawFresh s).2).port = s.port := rfl
@[simp] theorem drawFresh_snd_response (s : State) : ((drawFresh s).2).response = s.response := rfl
@[simp] theorem drawFresh_snd_draws (s : State) : ((drawFresh s).2).draws = s.draws + 1 := rfl

@[simp] theorem drawFresh_fst (s : State) : (drawFresh s).1 = Config.entropy s.draws := rfl
@[simp] theorem freshSel_forced (f : Nibble) (s : State) : freshSel (.forced f) s = (f, s) := rfl
@[simp] theorem freshSel_random (s : State) : freshSel .random s = drawFresh s := rfl

/-! ### Updates of the block -/

@[simp] theorem prologue_cfgState (b : Block) : (prologue b).cfgState = b.cfgState := rfl
@[simp] theorem prologue_key (b : Block) : (prologue b).key = b.key := rfl
@[simp] theorem prologue_keyValid (b : Block) : (prologue b).keyValid = b.keyValid := rfl
@[simp] theorem prologue_keyRangeErr (b : Block) : (prologue b).keyRangeErr = b.keyRangeErr := rfl
@[simp] theorem prologue_alpha (b : Block) : (prologue b).alpha = b.alpha := rfl
@[simp] theorem prologue_alphaValid (b : Block) : (prologue b).alphaValid = b.alphaValid := rfl
@[simp] theorem prologue_alphaRangeErr (b : Block) : (prologue b).alphaRangeErr = b.alphaRangeErr := rfl
@[simp] theorem prologue_idIn (b : Block) : (prologue b).idIn = b.idIn := rfl
@[simp] theorem prologue_countIn (b : Block) : (prologue b).countIn = b.countIn := rfl
@[simp] theorem prologue_codeIn (b : Block) : (prologue b).codeIn = b.codeIn := rfl
@[simp] theorem prologue_codeInLen (b : Block) : (prologue b).codeInLen = b.codeInLen := rfl
@[simp] theorem prologue_idOut (b : Block) : (prologue b).idOut = 0 := rfl
@[simp] theorem prologue_freshOut (b : Block) : (prologue b).freshOut = 0 := rfl
@[simp] theorem prologue_codeOut (b : Block) : (prologue b).codeOut = Vector.replicate 10 0 := rfl
@[simp] theorem prologue_outValid (b : Block) : (prologue b).outValid = false := rfl
@[simp] theorem prologue_err (b : Block) : (prologue b).err = 0 := rfl
@[simp] theorem prologue_cause (b : Block) : (prologue b).cause = 0 := rfl
@[simp] theorem prologue_errSticky (b : Block) : (prologue b).errSticky = b.errSticky := rfl
@[simp] theorem prologue_batchNextId (b : Block) : (prologue b).batchNextId = b.batchNextId := rfl
@[simp] theorem prologue_batchRemaining (b : Block) : (prologue b).batchRemaining = b.batchRemaining := rfl

@[simp] theorem raise_cfgState (e : ErrCode) (c : Byte) (b : Block) : (raise e c b).cfgState = b.cfgState := rfl
@[simp] theorem raise_key (e : ErrCode) (c : Byte) (b : Block) : (raise e c b).key = b.key := rfl
@[simp] theorem raise_keyValid (e : ErrCode) (c : Byte) (b : Block) : (raise e c b).keyValid = b.keyValid := rfl
@[simp] theorem raise_keyRangeErr (e : ErrCode) (c : Byte) (b : Block) : (raise e c b).keyRangeErr = b.keyRangeErr := rfl
@[simp] theorem raise_alpha (e : ErrCode) (c : Byte) (b : Block) : (raise e c b).alpha = b.alpha := rfl
@[simp] theorem raise_alphaValid (e : ErrCode) (c : Byte) (b : Block) : (raise e c b).alphaValid = b.alphaValid := rfl
@[simp] theorem raise_alphaRangeErr (e : ErrCode) (c : Byte) (b : Block) : (raise e c b).alphaRangeErr = b.alphaRangeErr := rfl
@[simp] theorem raise_idIn (e : ErrCode) (c : Byte) (b : Block) : (raise e c b).idIn = b.idIn := rfl
@[simp] theorem raise_countIn (e : ErrCode) (c : Byte) (b : Block) : (raise e c b).countIn = b.countIn := rfl
@[simp] theorem raise_codeIn (e : ErrCode) (c : Byte) (b : Block) : (raise e c b).codeIn = b.codeIn := rfl
@[simp] theorem raise_codeInLen (e : ErrCode) (c : Byte) (b : Block) : (raise e c b).codeInLen = b.codeInLen := rfl
@[simp] theorem raise_idOut (e : ErrCode) (c : Byte) (b : Block) : (raise e c b).idOut = b.idOut := rfl
@[simp] theorem raise_freshOut (e : ErrCode) (c : Byte) (b : Block) : (raise e c b).freshOut = b.freshOut := rfl
@[simp] theorem raise_codeOut (e : ErrCode) (c : Byte) (b : Block) : (raise e c b).codeOut = b.codeOut := rfl
@[simp] theorem raise_outValid (e : ErrCode) (c : Byte) (b : Block) : (raise e c b).outValid = b.outValid := rfl
@[simp] theorem raise_err (e : ErrCode) (c : Byte) (b : Block) : (raise e c b).err = e.code := rfl
@[simp] theorem raise_cause (e : ErrCode) (c : Byte) (b : Block) : (raise e c b).cause = c := rfl
@[simp] theorem raise_errSticky (e : ErrCode) (c : Byte) (b : Block) : (raise e c b).errSticky = true := rfl
@[simp] theorem raise_batchNextId (e : ErrCode) (c : Byte) (b : Block) : (raise e c b).batchNextId = b.batchNextId := rfl
@[simp] theorem raise_batchRemaining (e : ErrCode) (c : Byte) (b : Block) : (raise e c b).batchRemaining = b.batchRemaining := rfl

@[simp] theorem writeCode_cfgState (code : Symbols) (f : Nibble) (id : Word) (b : Block) : (writeCode code f id b).cfgState = b.cfgState := rfl
@[simp] theorem writeCode_key (code : Symbols) (f : Nibble) (id : Word) (b : Block) : (writeCode code f id b).key = b.key := rfl
@[simp] theorem writeCode_keyValid (code : Symbols) (f : Nibble) (id : Word) (b : Block) : (writeCode code f id b).keyValid = b.keyValid := rfl
@[simp] theorem writeCode_keyRangeErr (code : Symbols) (f : Nibble) (id : Word) (b : Block) : (writeCode code f id b).keyRangeErr = b.keyRangeErr := rfl
@[simp] theorem writeCode_alpha (code : Symbols) (f : Nibble) (id : Word) (b : Block) : (writeCode code f id b).alpha = b.alpha := rfl
@[simp] theorem writeCode_alphaValid (code : Symbols) (f : Nibble) (id : Word) (b : Block) : (writeCode code f id b).alphaValid = b.alphaValid := rfl
@[simp] theorem writeCode_alphaRangeErr (code : Symbols) (f : Nibble) (id : Word) (b : Block) : (writeCode code f id b).alphaRangeErr = b.alphaRangeErr := rfl
@[simp] theorem writeCode_idIn (code : Symbols) (f : Nibble) (id : Word) (b : Block) : (writeCode code f id b).idIn = b.idIn := rfl
@[simp] theorem writeCode_countIn (code : Symbols) (f : Nibble) (id : Word) (b : Block) : (writeCode code f id b).countIn = b.countIn := rfl
@[simp] theorem writeCode_codeIn (code : Symbols) (f : Nibble) (id : Word) (b : Block) : (writeCode code f id b).codeIn = b.codeIn := rfl
@[simp] theorem writeCode_codeInLen (code : Symbols) (f : Nibble) (id : Word) (b : Block) : (writeCode code f id b).codeInLen = b.codeInLen := rfl
@[simp] theorem writeCode_idOut (code : Symbols) (f : Nibble) (id : Word) (b : Block) : (writeCode code f id b).idOut = id := rfl
@[simp] theorem writeCode_freshOut (code : Symbols) (f : Nibble) (id : Word) (b : Block) : (writeCode code f id b).freshOut = f := rfl
@[simp] theorem writeCode_codeOut (code : Symbols) (f : Nibble) (id : Word) (b : Block) : (writeCode code f id b).codeOut = code := rfl
@[simp] theorem writeCode_outValid (code : Symbols) (f : Nibble) (id : Word) (b : Block) : (writeCode code f id b).outValid = true := rfl
@[simp] theorem writeCode_err (code : Symbols) (f : Nibble) (id : Word) (b : Block) : (writeCode code f id b).err = b.err := rfl
@[simp] theorem writeCode_cause (code : Symbols) (f : Nibble) (id : Word) (b : Block) : (writeCode code f id b).cause = b.cause := rfl
@[simp] theorem writeCode_errSticky (code : Symbols) (f : Nibble) (id : Word) (b : Block) : (writeCode code f id b).errSticky = b.errSticky := rfl
@[simp] theorem writeCode_batchNextId (code : Symbols) (f : Nibble) (id : Word) (b : Block) : (writeCode code f id b).batchNextId = b.batchNextId := rfl
@[simp] theorem writeCode_batchRemaining (code : Symbols) (f : Nibble) (id : Word) (b : Block) : (writeCode code f id b).batchRemaining = b.batchRemaining := rfl

@[simp] theorem emitCode_cfgState (id : Word) (f : Nibble) (b : Block) : (emitCode id f b).cfgState = b.cfgState := rfl
@[simp] theorem emitCode_key (id : Word) (f : Nibble) (b : Block) : (emitCode id f b).key = b.key := rfl
@[simp] theorem emitCode_keyValid (id : Word) (f : Nibble) (b : Block) : (emitCode id f b).keyValid = b.keyValid := rfl
@[simp] theorem emitCode_keyRangeErr (id : Word) (f : Nibble) (b : Block) : (emitCode id f b).keyRangeErr = b.keyRangeErr := rfl
@[simp] theorem emitCode_alpha (id : Word) (f : Nibble) (b : Block) : (emitCode id f b).alpha = b.alpha := rfl
@[simp] theorem emitCode_alphaValid (id : Word) (f : Nibble) (b : Block) : (emitCode id f b).alphaValid = b.alphaValid := rfl
@[simp] theorem emitCode_alphaRangeErr (id : Word) (f : Nibble) (b : Block) : (emitCode id f b).alphaRangeErr = b.alphaRangeErr := rfl
@[simp] theorem emitCode_idIn (id : Word) (f : Nibble) (b : Block) : (emitCode id f b).idIn = b.idIn := rfl
@[simp] theorem emitCode_countIn (id : Word) (f : Nibble) (b : Block) : (emitCode id f b).countIn = b.countIn := rfl
@[simp] theorem emitCode_codeIn (id : Word) (f : Nibble) (b : Block) : (emitCode id f b).codeIn = b.codeIn := rfl
@[simp] theorem emitCode_codeInLen (id : Word) (f : Nibble) (b : Block) : (emitCode id f b).codeInLen = b.codeInLen := rfl
@[simp] theorem emitCode_idOut (id : Word) (f : Nibble) (b : Block) : (emitCode id f b).idOut = id := rfl
@[simp] theorem emitCode_freshOut (id : Word) (f : Nibble) (b : Block) : (emitCode id f b).freshOut = f := rfl
@[simp] theorem emitCode_codeOut (id : Word) (f : Nibble) (b : Block) : (emitCode id f b).codeOut = genCode b.key b.alpha id f := rfl
@[simp] theorem emitCode_outValid (id : Word) (f : Nibble) (b : Block) : (emitCode id f b).outValid = true := rfl
@[simp] theorem emitCode_err (id : Word) (f : Nibble) (b : Block) : (emitCode id f b).err = b.err := rfl
@[simp] theorem emitCode_cause (id : Word) (f : Nibble) (b : Block) : (emitCode id f b).cause = b.cause := rfl
@[simp] theorem emitCode_errSticky (id : Word) (f : Nibble) (b : Block) : (emitCode id f b).errSticky = b.errSticky := rfl
@[simp] theorem emitCode_batchNextId (id : Word) (f : Nibble) (b : Block) : (emitCode id f b).batchNextId = b.batchNextId := rfl
@[simp] theorem emitCode_batchRemaining (id : Word) (f : Nibble) (b : Block) : (emitCode id f b).batchRemaining = b.batchRemaining := rfl

@[simp] theorem writeParsed_cfgState (id : Word) (f : Nibble) (b : Block) : (writeParsed id f b).cfgState = b.cfgState := rfl
@[simp] theorem writeParsed_key (id : Word) (f : Nibble) (b : Block) : (writeParsed id f b).key = b.key := rfl
@[simp] theorem writeParsed_keyValid (id : Word) (f : Nibble) (b : Block) : (writeParsed id f b).keyValid = b.keyValid := rfl
@[simp] theorem writeParsed_keyRangeErr (id : Word) (f : Nibble) (b : Block) : (writeParsed id f b).keyRangeErr = b.keyRangeErr := rfl
@[simp] theorem writeParsed_alpha (id : Word) (f : Nibble) (b : Block) : (writeParsed id f b).alpha = b.alpha := rfl
@[simp] theorem writeParsed_alphaValid (id : Word) (f : Nibble) (b : Block) : (writeParsed id f b).alphaValid = b.alphaValid := rfl
@[simp] theorem writeParsed_alphaRangeErr (id : Word) (f : Nibble) (b : Block) : (writeParsed id f b).alphaRangeErr = b.alphaRangeErr := rfl
@[simp] theorem writeParsed_idIn (id : Word) (f : Nibble) (b : Block) : (writeParsed id f b).idIn = b.idIn := rfl
@[simp] theorem writeParsed_countIn (id : Word) (f : Nibble) (b : Block) : (writeParsed id f b).countIn = b.countIn := rfl
@[simp] theorem writeParsed_codeIn (id : Word) (f : Nibble) (b : Block) : (writeParsed id f b).codeIn = b.codeIn := rfl
@[simp] theorem writeParsed_codeInLen (id : Word) (f : Nibble) (b : Block) : (writeParsed id f b).codeInLen = b.codeInLen := rfl
@[simp] theorem writeParsed_idOut (id : Word) (f : Nibble) (b : Block) : (writeParsed id f b).idOut = id := rfl
@[simp] theorem writeParsed_freshOut (id : Word) (f : Nibble) (b : Block) : (writeParsed id f b).freshOut = f := rfl
@[simp] theorem writeParsed_codeOut (id : Word) (f : Nibble) (b : Block) : (writeParsed id f b).codeOut = b.codeOut := rfl
@[simp] theorem writeParsed_outValid (id : Word) (f : Nibble) (b : Block) : (writeParsed id f b).outValid = true := rfl
@[simp] theorem writeParsed_err (id : Word) (f : Nibble) (b : Block) : (writeParsed id f b).err = b.err := rfl
@[simp] theorem writeParsed_cause (id : Word) (f : Nibble) (b : Block) : (writeParsed id f b).cause = b.cause := rfl
@[simp] theorem writeParsed_errSticky (id : Word) (f : Nibble) (b : Block) : (writeParsed id f b).errSticky = b.errSticky := rfl
@[simp] theorem writeParsed_batchNextId (id : Word) (f : Nibble) (b : Block) : (writeParsed id f b).batchNextId = b.batchNextId := rfl
@[simp] theorem writeParsed_batchRemaining (id : Word) (f : Nibble) (b : Block) : (writeParsed id f b).batchRemaining = b.batchRemaining := rfl

@[simp] theorem clearConfiguration_cfgState (b : Block) : (clearConfiguration b).cfgState = .unconfigured := rfl
@[simp] theorem clearConfiguration_key (b : Block) : (clearConfiguration b).key = Vector.replicate 16 (Vector.replicate 8 0) := rfl
@[simp] theorem clearConfiguration_keyValid (b : Block) : (clearConfiguration b).keyValid = Vector.replicate 16 (Vector.replicate 8 false) := rfl
@[simp] theorem clearConfiguration_keyRangeErr (b : Block) : (clearConfiguration b).keyRangeErr = false := rfl
@[simp] theorem clearConfiguration_alpha (b : Block) : (clearConfiguration b).alpha = Vector.replicate 32 0 := rfl
@[simp] theorem clearConfiguration_alphaValid (b : Block) : (clearConfiguration b).alphaValid = Vector.replicate 32 false := rfl
@[simp] theorem clearConfiguration_alphaRangeErr (b : Block) : (clearConfiguration b).alphaRangeErr = false := rfl
@[simp] theorem clearConfiguration_idIn (b : Block) : (clearConfiguration b).idIn = b.idIn := rfl
@[simp] theorem clearConfiguration_countIn (b : Block) : (clearConfiguration b).countIn = b.countIn := rfl
@[simp] theorem clearConfiguration_codeIn (b : Block) : (clearConfiguration b).codeIn = b.codeIn := rfl
@[simp] theorem clearConfiguration_codeInLen (b : Block) : (clearConfiguration b).codeInLen = b.codeInLen := rfl
@[simp] theorem clearConfiguration_idOut (b : Block) : (clearConfiguration b).idOut = b.idOut := rfl
@[simp] theorem clearConfiguration_freshOut (b : Block) : (clearConfiguration b).freshOut = b.freshOut := rfl
@[simp] theorem clearConfiguration_codeOut (b : Block) : (clearConfiguration b).codeOut = b.codeOut := rfl
@[simp] theorem clearConfiguration_outValid (b : Block) : (clearConfiguration b).outValid = b.outValid := rfl
@[simp] theorem clearConfiguration_err (b : Block) : (clearConfiguration b).err = b.err := rfl
@[simp] theorem clearConfiguration_cause (b : Block) : (clearConfiguration b).cause = b.cause := rfl
@[simp] theorem clearConfiguration_errSticky (b : Block) : (clearConfiguration b).errSticky = b.errSticky := rfl
@[simp] theorem clearConfiguration_batchNextId (b : Block) : (clearConfiguration b).batchNextId = 0 := rfl
@[simp] theorem clearConfiguration_batchRemaining (b : Block) : (clearConfiguration b).batchRemaining = 0 := rfl

@[simp] theorem storeKey_cfgState (r : Fin 16) (c : Fin 8) (v : Word) (b : Block) : (storeKey r c v b).cfgState = b.cfgState := rfl
@[simp] theorem storeKey_key (r : Fin 16) (c : Fin 8) (v : Word) (b : Block) : (storeKey r c v b).key = setEntry b.key r c (v.extractLsb' 0 16) := rfl
@[simp] theorem storeKey_keyValid (r : Fin 16) (c : Fin 8) (v : Word) (b : Block) : (storeKey r c v b).keyValid = setEntry b.keyValid r c true := rfl
@[simp] theorem storeKey_keyRangeErr (r : Fin 16) (c : Fin 8) (v : Word) (b : Block) : (storeKey r c v b).keyRangeErr = (b.keyRangeErr || v.extractLsb' 16 16 != 0) := rfl
@[simp] theorem storeKey_alpha (r : Fin 16) (c : Fin 8) (v : Word) (b : Block) : (storeKey r c v b).alpha = b.alpha := rfl
@[simp] theorem storeKey_alphaValid (r : Fin 16) (c : Fin 8) (v : Word) (b : Block) : (storeKey r c v b).alphaValid = b.alphaValid := rfl
@[simp] theorem storeKey_alphaRangeErr (r : Fin 16) (c : Fin 8) (v : Word) (b : Block) : (storeKey r c v b).alphaRangeErr = b.alphaRangeErr := rfl
@[simp] theorem storeKey_idIn (r : Fin 16) (c : Fin 8) (v : Word) (b : Block) : (storeKey r c v b).idIn = b.idIn := rfl
@[simp] theorem storeKey_countIn (r : Fin 16) (c : Fin 8) (v : Word) (b : Block) : (storeKey r c v b).countIn = b.countIn := rfl
@[simp] theorem storeKey_codeIn (r : Fin 16) (c : Fin 8) (v : Word) (b : Block) : (storeKey r c v b).codeIn = b.codeIn := rfl
@[simp] theorem storeKey_codeInLen (r : Fin 16) (c : Fin 8) (v : Word) (b : Block) : (storeKey r c v b).codeInLen = b.codeInLen := rfl
@[simp] theorem storeKey_idOut (r : Fin 16) (c : Fin 8) (v : Word) (b : Block) : (storeKey r c v b).idOut = b.idOut := rfl
@[simp] theorem storeKey_freshOut (r : Fin 16) (c : Fin 8) (v : Word) (b : Block) : (storeKey r c v b).freshOut = b.freshOut := rfl
@[simp] theorem storeKey_codeOut (r : Fin 16) (c : Fin 8) (v : Word) (b : Block) : (storeKey r c v b).codeOut = b.codeOut := rfl
@[simp] theorem storeKey_outValid (r : Fin 16) (c : Fin 8) (v : Word) (b : Block) : (storeKey r c v b).outValid = b.outValid := rfl
@[simp] theorem storeKey_err (r : Fin 16) (c : Fin 8) (v : Word) (b : Block) : (storeKey r c v b).err = b.err := rfl
@[simp] theorem storeKey_cause (r : Fin 16) (c : Fin 8) (v : Word) (b : Block) : (storeKey r c v b).cause = b.cause := rfl
@[simp] theorem storeKey_errSticky (r : Fin 16) (c : Fin 8) (v : Word) (b : Block) : (storeKey r c v b).errSticky = b.errSticky := rfl
@[simp] theorem storeKey_batchNextId (r : Fin 16) (c : Fin 8) (v : Word) (b : Block) : (storeKey r c v b).batchNextId = b.batchNextId := rfl
@[simp] theorem storeKey_batchRemaining (r : Fin 16) (c : Fin 8) (v : Word) (b : Block) : (storeKey r c v b).batchRemaining = b.batchRemaining := rfl

@[simp] theorem storeAlpha_cfgState (j : Fin 32) (v : Word) (b : Block) : (storeAlpha j v b).cfgState = b.cfgState := rfl
@[simp] theorem storeAlpha_key (j : Fin 32) (v : Word) (b : Block) : (storeAlpha j v b).key = b.key := rfl
@[simp] theorem storeAlpha_keyValid (j : Fin 32) (v : Word) (b : Block) : (storeAlpha j v b).keyValid = b.keyValid := rfl
@[simp] theorem storeAlpha_keyRangeErr (j : Fin 32) (v : Word) (b : Block) : (storeAlpha j v b).keyRangeErr = b.keyRangeErr := rfl
@[simp] theorem storeAlpha_alpha (j : Fin 32) (v : Word) (b : Block) : (storeAlpha j v b).alpha = b.alpha.set j.val (v.extractLsb' 0 8) := rfl
@[simp] theorem storeAlpha_alphaValid (j : Fin 32) (v : Word) (b : Block) : (storeAlpha j v b).alphaValid = b.alphaValid.set j.val true := rfl
@[simp] theorem storeAlpha_alphaRangeErr (j : Fin 32) (v : Word) (b : Block) : (storeAlpha j v b).alphaRangeErr = (b.alphaRangeErr || v.extractLsb' 8 24 != 0) := rfl
@[simp] theorem storeAlpha_idIn (j : Fin 32) (v : Word) (b : Block) : (storeAlpha j v b).idIn = b.idIn := rfl
@[simp] theorem storeAlpha_countIn (j : Fin 32) (v : Word) (b : Block) : (storeAlpha j v b).countIn = b.countIn := rfl
@[simp] theorem storeAlpha_codeIn (j : Fin 32) (v : Word) (b : Block) : (storeAlpha j v b).codeIn = b.codeIn := rfl
@[simp] theorem storeAlpha_codeInLen (j : Fin 32) (v : Word) (b : Block) : (storeAlpha j v b).codeInLen = b.codeInLen := rfl
@[simp] theorem storeAlpha_idOut (j : Fin 32) (v : Word) (b : Block) : (storeAlpha j v b).idOut = b.idOut := rfl
@[simp] theorem storeAlpha_freshOut (j : Fin 32) (v : Word) (b : Block) : (storeAlpha j v b).freshOut = b.freshOut := rfl
@[simp] theorem storeAlpha_codeOut (j : Fin 32) (v : Word) (b : Block) : (storeAlpha j v b).codeOut = b.codeOut := rfl
@[simp] theorem storeAlpha_outValid (j : Fin 32) (v : Word) (b : Block) : (storeAlpha j v b).outValid = b.outValid := rfl
@[simp] theorem storeAlpha_err (j : Fin 32) (v : Word) (b : Block) : (storeAlpha j v b).err = b.err := rfl
@[simp] theorem storeAlpha_cause (j : Fin 32) (v : Word) (b : Block) : (storeAlpha j v b).cause = b.cause := rfl
@[simp] theorem storeAlpha_errSticky (j : Fin 32) (v : Word) (b : Block) : (storeAlpha j v b).errSticky = b.errSticky := rfl
@[simp] theorem storeAlpha_batchNextId (j : Fin 32) (v : Word) (b : Block) : (storeAlpha j v b).batchNextId = b.batchNextId := rfl
@[simp] theorem storeAlpha_batchRemaining (j : Fin 32) (v : Word) (b : Block) : (storeAlpha j v b).batchRemaining = b.batchRemaining := rfl

@[simp] theorem storeCodeIn_cfgState (n : Fin 3) (v : Word) (b : Block) : (storeCodeIn n v b).cfgState = b.cfgState := rfl
@[simp] theorem storeCodeIn_key (n : Fin 3) (v : Word) (b : Block) : (storeCodeIn n v b).key = b.key := rfl
@[simp] theorem storeCodeIn_keyValid (n : Fin 3) (v : Word) (b : Block) : (storeCodeIn n v b).keyValid = b.keyValid := rfl
@[simp] theorem storeCodeIn_keyRangeErr (n : Fin 3) (v : Word) (b : Block) : (storeCodeIn n v b).keyRangeErr = b.keyRangeErr := rfl
@[simp] theorem storeCodeIn_alpha (n : Fin 3) (v : Word) (b : Block) : (storeCodeIn n v b).alpha = b.alpha := rfl
@[simp] theorem storeCodeIn_alphaValid (n : Fin 3) (v : Word) (b : Block) : (storeCodeIn n v b).alphaValid = b.alphaValid := rfl
@[simp] theorem storeCodeIn_alphaRangeErr (n : Fin 3) (v : Word) (b : Block) : (storeCodeIn n v b).alphaRangeErr = b.alphaRangeErr := rfl
@[simp] theorem storeCodeIn_idIn (n : Fin 3) (v : Word) (b : Block) : (storeCodeIn n v b).idIn = b.idIn := rfl
@[simp] theorem storeCodeIn_countIn (n : Fin 3) (v : Word) (b : Block) : (storeCodeIn n v b).countIn = b.countIn := rfl
@[simp] theorem storeCodeIn_codeIn (n : Fin 3) (v : Word) (b : Block) : (storeCodeIn n v b).codeIn = setCodeWord b.codeIn n v := rfl
@[simp] theorem storeCodeIn_codeInLen (n : Fin 3) (v : Word) (b : Block) : (storeCodeIn n v b).codeInLen = b.codeInLen := rfl
@[simp] theorem storeCodeIn_idOut (n : Fin 3) (v : Word) (b : Block) : (storeCodeIn n v b).idOut = b.idOut := rfl
@[simp] theorem storeCodeIn_freshOut (n : Fin 3) (v : Word) (b : Block) : (storeCodeIn n v b).freshOut = b.freshOut := rfl
@[simp] theorem storeCodeIn_codeOut (n : Fin 3) (v : Word) (b : Block) : (storeCodeIn n v b).codeOut = b.codeOut := rfl
@[simp] theorem storeCodeIn_outValid (n : Fin 3) (v : Word) (b : Block) : (storeCodeIn n v b).outValid = b.outValid := rfl
@[simp] theorem storeCodeIn_err (n : Fin 3) (v : Word) (b : Block) : (storeCodeIn n v b).err = b.err := rfl
@[simp] theorem storeCodeIn_cause (n : Fin 3) (v : Word) (b : Block) : (storeCodeIn n v b).cause = b.cause := rfl
@[simp] theorem storeCodeIn_errSticky (n : Fin 3) (v : Word) (b : Block) : (storeCodeIn n v b).errSticky = b.errSticky := rfl
@[simp] theorem storeCodeIn_batchNextId (n : Fin 3) (v : Word) (b : Block) : (storeCodeIn n v b).batchNextId = b.batchNextId := rfl
@[simp] theorem storeCodeIn_batchRemaining (n : Fin 3) (v : Word) (b : Block) : (storeCodeIn n v b).batchRemaining = b.batchRemaining := rfl

@[simp] theorem loadBatch_cfgState (b : Block) : (loadBatch b).cfgState = b.cfgState := rfl
@[simp] theorem loadBatch_key (b : Block) : (loadBatch b).key = b.key := rfl
@[simp] theorem loadBatch_keyValid (b : Block) : (loadBatch b).keyValid = b.keyValid := rfl
@[simp] theorem loadBatch_keyRangeErr (b : Block) : (loadBatch b).keyRangeErr = b.keyRangeErr := rfl
@[simp] theorem loadBatch_alpha (b : Block) : (loadBatch b).alpha = b.alpha := rfl
@[simp] theorem loadBatch_alphaValid (b : Block) : (loadBatch b).alphaValid = b.alphaValid := rfl
@[simp] theorem loadBatch_alphaRangeErr (b : Block) : (loadBatch b).alphaRangeErr = b.alphaRangeErr := rfl
@[simp] theorem loadBatch_idIn (b : Block) : (loadBatch b).idIn = b.idIn := rfl
@[simp] theorem loadBatch_countIn (b : Block) : (loadBatch b).countIn = b.countIn := rfl
@[simp] theorem loadBatch_codeIn (b : Block) : (loadBatch b).codeIn = b.codeIn := rfl
@[simp] theorem loadBatch_codeInLen (b : Block) : (loadBatch b).codeInLen = b.codeInLen := rfl
@[simp] theorem loadBatch_idOut (b : Block) : (loadBatch b).idOut = b.idOut := rfl
@[simp] theorem loadBatch_freshOut (b : Block) : (loadBatch b).freshOut = b.freshOut := rfl
@[simp] theorem loadBatch_codeOut (b : Block) : (loadBatch b).codeOut = b.codeOut := rfl
@[simp] theorem loadBatch_outValid (b : Block) : (loadBatch b).outValid = b.outValid := rfl
@[simp] theorem loadBatch_err (b : Block) : (loadBatch b).err = b.err := rfl
@[simp] theorem loadBatch_cause (b : Block) : (loadBatch b).cause = b.cause := rfl
@[simp] theorem loadBatch_errSticky (b : Block) : (loadBatch b).errSticky = b.errSticky := rfl
@[simp] theorem loadBatch_batchNextId (b : Block) : (loadBatch b).batchNextId = b.idIn := rfl
@[simp] theorem loadBatch_batchRemaining (b : Block) : (loadBatch b).batchRemaining = b.countIn := rfl

@[simp] theorem advanceBatch_cfgState (b : Block) : (advanceBatch b).cfgState = b.cfgState := rfl
@[simp] theorem advanceBatch_key (b : Block) : (advanceBatch b).key = b.key := rfl
@[simp] theorem advanceBatch_keyValid (b : Block) : (advanceBatch b).keyValid = b.keyValid := rfl
@[simp] theorem advanceBatch_keyRangeErr (b : Block) : (advanceBatch b).keyRangeErr = b.keyRangeErr := rfl
@[simp] theorem advanceBatch_alpha (b : Block) : (advanceBatch b).alpha = b.alpha := rfl
@[simp] theorem advanceBatch_alphaValid (b : Block) : (advanceBatch b).alphaValid = b.alphaValid := rfl
@[simp] theorem advanceBatch_alphaRangeErr (b : Block) : (advanceBatch b).alphaRangeErr = b.alphaRangeErr := rfl
@[simp] theorem advanceBatch_idIn (b : Block) : (advanceBatch b).idIn = b.idIn := rfl
@[simp] theorem advanceBatch_countIn (b : Block) : (advanceBatch b).countIn = b.countIn := rfl
@[simp] theorem advanceBatch_codeIn (b : Block) : (advanceBatch b).codeIn = b.codeIn := rfl
@[simp] theorem advanceBatch_codeInLen (b : Block) : (advanceBatch b).codeInLen = b.codeInLen := rfl
@[simp] theorem advanceBatch_idOut (b : Block) : (advanceBatch b).idOut = b.idOut := rfl
@[simp] theorem advanceBatch_freshOut (b : Block) : (advanceBatch b).freshOut = b.freshOut := rfl
@[simp] theorem advanceBatch_codeOut (b : Block) : (advanceBatch b).codeOut = b.codeOut := rfl
@[simp] theorem advanceBatch_outValid (b : Block) : (advanceBatch b).outValid = b.outValid := rfl
@[simp] theorem advanceBatch_err (b : Block) : (advanceBatch b).err = b.err := rfl
@[simp] theorem advanceBatch_cause (b : Block) : (advanceBatch b).cause = b.cause := rfl
@[simp] theorem advanceBatch_errSticky (b : Block) : (advanceBatch b).errSticky = b.errSticky := rfl
@[simp] theorem advanceBatch_batchNextId (b : Block) : (advanceBatch b).batchNextId = b.batchNextId + 1 := rfl
@[simp] theorem advanceBatch_batchRemaining (b : Block) : (advanceBatch b).batchRemaining = b.batchRemaining - 1 := rfl

@[simp] theorem clearSticky_cfgState (v : Word) (b : Block) : (clearSticky v b).cfgState = b.cfgState := by
  unfold clearSticky; split <;> rfl
@[simp] theorem clearSticky_key (v : Word) (b : Block) : (clearSticky v b).key = b.key := by
  unfold clearSticky; split <;> rfl
@[simp] theorem clearSticky_keyValid (v : Word) (b : Block) : (clearSticky v b).keyValid = b.keyValid := by
  unfold clearSticky; split <;> rfl
@[simp] theorem clearSticky_keyRangeErr (v : Word) (b : Block) : (clearSticky v b).keyRangeErr = b.keyRangeErr := by
  unfold clearSticky; split <;> rfl
@[simp] theorem clearSticky_alpha (v : Word) (b : Block) : (clearSticky v b).alpha = b.alpha := by
  unfold clearSticky; split <;> rfl
@[simp] theorem clearSticky_alphaValid (v : Word) (b : Block) : (clearSticky v b).alphaValid = b.alphaValid := by
  unfold clearSticky; split <;> rfl
@[simp] theorem clearSticky_alphaRangeErr (v : Word) (b : Block) : (clearSticky v b).alphaRangeErr = b.alphaRangeErr := by
  unfold clearSticky; split <;> rfl
@[simp] theorem clearSticky_idIn (v : Word) (b : Block) : (clearSticky v b).idIn = b.idIn := by
  unfold clearSticky; split <;> rfl
@[simp] theorem clearSticky_countIn (v : Word) (b : Block) : (clearSticky v b).countIn = b.countIn := by
  unfold clearSticky; split <;> rfl
@[simp] theorem clearSticky_codeIn (v : Word) (b : Block) : (clearSticky v b).codeIn = b.codeIn := by
  unfold clearSticky; split <;> rfl
@[simp] theorem clearSticky_codeInLen (v : Word) (b : Block) : (clearSticky v b).codeInLen = b.codeInLen := by
  unfold clearSticky; split <;> rfl
@[simp] theorem clearSticky_idOut (v : Word) (b : Block) : (clearSticky v b).idOut = b.idOut := by
  unfold clearSticky; split <;> rfl
@[simp] theorem clearSticky_freshOut (v : Word) (b : Block) : (clearSticky v b).freshOut = b.freshOut := by
  unfold clearSticky; split <;> rfl
@[simp] theorem clearSticky_codeOut (v : Word) (b : Block) : (clearSticky v b).codeOut = b.codeOut := by
  unfold clearSticky; split <;> rfl
@[simp] theorem clearSticky_outValid (v : Word) (b : Block) : (clearSticky v b).outValid = b.outValid := by
  unfold clearSticky; split <;> rfl
@[simp] theorem clearSticky_err (v : Word) (b : Block) : (clearSticky v b).err = b.err := by
  unfold clearSticky; split <;> rfl
@[simp] theorem clearSticky_cause (v : Word) (b : Block) : (clearSticky v b).cause = b.cause := by
  unfold clearSticky; split <;> rfl
@[simp] theorem clearSticky_errSticky (v : Word) (b : Block) :
    (clearSticky v b).errSticky = (b.errSticky && !v.getLsbD 3) := by
  unfold clearSticky; split <;> simp_all
@[simp] theorem clearSticky_batchNextId (v : Word) (b : Block) : (clearSticky v b).batchNextId = b.batchNextId := by
  unfold clearSticky; split <;> rfl
@[simp] theorem clearSticky_batchRemaining (v : Word) (b : Block) : (clearSticky v b).batchRemaining = b.batchRemaining := by
  unfold clearSticky; split <;> rfl

/-! ### The block after reset -/

@[simp] theorem reset_cfgState : Block.reset.cfgState = .unconfigured := rfl
@[simp] theorem reset_key : Block.reset.key = Vector.replicate 16 (Vector.replicate 8 0) := rfl
@[simp] theorem reset_keyValid : Block.reset.keyValid = Vector.replicate 16 (Vector.replicate 8 false) := rfl
@[simp] theorem reset_keyRangeErr : Block.reset.keyRangeErr = false := rfl
@[simp] theorem reset_alpha : Block.reset.alpha = Vector.replicate 32 0 := rfl
@[simp] theorem reset_alphaValid : Block.reset.alphaValid = Vector.replicate 32 false := rfl
@[simp] theorem reset_alphaRangeErr : Block.reset.alphaRangeErr = false := rfl
@[simp] theorem reset_idIn : Block.reset.idIn = 0 := rfl
@[simp] theorem reset_countIn : Block.reset.countIn = 0 := rfl
@[simp] theorem reset_codeIn : Block.reset.codeIn = Vector.replicate 10 0 := rfl
@[simp] theorem reset_codeInLen : Block.reset.codeInLen = 0 := rfl
@[simp] theorem reset_idOut : Block.reset.idOut = 0 := rfl
@[simp] theorem reset_freshOut : Block.reset.freshOut = 0 := rfl
@[simp] theorem reset_codeOut : Block.reset.codeOut = Vector.replicate 10 0 := rfl
@[simp] theorem reset_outValid : Block.reset.outValid = false := rfl
@[simp] theorem reset_err : Block.reset.err = 0 := rfl
@[simp] theorem reset_cause : Block.reset.cause = 0 := rfl
@[simp] theorem reset_errSticky : Block.reset.errSticky = false := rfl
@[simp] theorem reset_batchNextId : Block.reset.batchNextId = 0 := rfl
@[simp] theorem reset_batchRemaining : Block.reset.batchRemaining = 0 := rfl

end Sys2Proof.Machine
end

