-- ==== Sys2Proof/Laws/Ops.lean ====
section
/-! SUPPORT. What each shared operation can do, said once: the arms of `exec`, the ends of commands and writes, the
command bodies case by case, the parse function's errors, the freshness selection, and the step case by case. -/

namespace Sys2Proof.Machine
open Sys2Proof.Safety

/-! ### The arms of exec -/

/-- A command row, or a write to CMD, runs the body of its command. -/
theorem exec_command {i : Instr} {c : Cmd} (h : commandOf i = some c) (s : State) :
    exec i s = .next (runCommand (commandBody c) s) := by
  cases i <;> simp only [commandOf, Option.some.injEq, reduceCtorEq] at h <;> subst h <;> rfl

theorem exec_wrKey (r : Fin 16) (c : Fin 8) (v : Word) (s : State) :
    exec (.wrKey r c v) s = .next (runWrite (unlessLocked (storeKey r c v)) s) := rfl
theorem exec_wrAlpha (j : Fin 32) (v : Word) (s : State) :
    exec (.wrAlpha j v) s = .next (runWrite (unlessLocked (storeAlpha j v)) s) := rfl
theorem exec_wrIdIn (v : Word) (s : State) :
    exec (.wrIdIn v) s = .next (runWrite (fun b => { b with idIn := v }) s) := rfl
theorem exec_wrCountIn (v : Word) (s : State) :
    exec (.wrCountIn v) s = .next (runWrite (fun b => { b with countIn := v }) s) := rfl
theorem exec_wrCodeInLen (v : Word) (s : State) :
    exec (.wrCodeInLen v) s = .next (runWrite (fun b => { b with codeInLen := v }) s) := rfl
theorem exec_wrCodeIn0 (v : Word) (s : State) : exec (.wrCodeIn0 v) s = .next (runWrite (storeCodeIn 0 v) s) := rfl
theorem exec_wrCodeIn1 (v : Word) (s : State) : exec (.wrCodeIn1 v) s = .next (runWrite (storeCodeIn 1 v) s) := rfl
theorem exec_wrCodeIn2 (v : Word) (s : State) : exec (.wrCodeIn2 v) s = .next (runWrite (storeCodeIn 2 v) s) := rfl
theorem exec_wrStatus (v : Word) (s : State) : exec (.wrStatus v) s = .next (runWrite (clearSticky v) s) := rfl
theorem exec_rd (off : Nat) (s : State) :
    exec (.rd off) s = .next (finish (.data (readReg s.policy s.block off)) s) := rfl
theorem exec_busError (a : BusAccess) (s : State) : exec (.busError a) s = .next (finish .busError s) := rfl

/-- What an instruction is: a command, a write that is no command, or an access that leaves the block alone. -/
theorem exec_cases (i : Instr) (s : State) :
    (∃ c, commandOf i = some c ∧ exec i s = .next (runCommand (commandBody c) s)) ∨
      (commandOf i = none ∧ ∃ action, exec i s = .next (runWrite action s)) ∨
      (commandOf i = none ∧ ∃ r, exec i s = .next (finish r s)) := by
  cases h : commandOf i with
  | some c => exact .inl ⟨c, rfl, exec_command h s⟩
  | none =>
    cases i <;> simp only [commandOf, reduceCtorEq] at h
    case rd off => exact .inr (.inr ⟨rfl, _, exec_rd off s⟩)
    case busError a => exact .inr (.inr ⟨rfl, _, exec_busError a s⟩)
    all_goals exact .inr (.inl ⟨rfl, _, rfl⟩)

/-! ### The ends of accesses -/

@[simp] theorem runWrite_block (action : Block → Block) (s : State) : (runWrite action s).block = action s.block := rfl
@[simp] theorem runWrite_policy (action : Block → Block) (s : State) : (runWrite action s).policy = s.policy := rfl
@[simp] theorem runWrite_port (action : Block → Block) (s : State) : (runWrite action s).port = s.port.tail := rfl
@[simp] theorem runWrite_response (action : Block → Block) (s : State) : (runWrite action s).response = .done := rfl
@[simp] theorem runWrite_draws (action : Block → Block) (s : State) : (runWrite action s).draws = s.draws := rfl

@[simp] theorem runCommand_block (body : State → State) (s : State) :
    (runCommand body s).block = (body (onBlock prologue s)).block := rfl
@[simp] theorem runCommand_draws (body : State → State) (s : State) :
    (runCommand body s).draws = (body (onBlock prologue s)).draws := rfl
@[simp] theorem runCommand_response (body : State → State) (s : State) : (runCommand body s).response = .done := rfl

/-- A table write while READY (R258). -/
theorem unlessLocked_ready (action : Block → Block) {b : Block} (h : b.cfgState = .ready) :
    unlessLocked action b = raise .configLocked 0 b := if_pos h

/-- A table write while UNCONFIGURED. -/
theorem unlessLocked_unconfigured (action : Block → Block) {b : Block} (h : b.cfgState = .unconfigured) :
    unlessLocked action b = action b := if_neg (by simp [h])

theorem whenConfigured_ready (body : State → State) {s : State} (h : s.block.cfgState = .ready) :
    whenConfigured body s = body s := if_pos h

theorem whenConfigured_unconfigured (body : State → State) {s : State} (h : s.block.cfgState = .unconfigured) :
    whenConfigured body s = raiseIn .notConfigured 0 s := if_neg (by simp [h])

theorem unconfigured_of_not_ready {c : CfgState} (h : c ≠ .ready) : c = .unconfigured := by
  cases c
  · rfl
  · exact absurd rfl h

/-! ### The freshness selection -/

@[simp] theorem freshSel_block (sel : FreshSel) (s : State) : (freshSel sel s).2.block = s.block := by
  cases sel <;> rfl
@[simp] theorem freshSel_policy (sel : FreshSel) (s : State) : (freshSel sel s).2.policy = s.policy := by
  cases sel <;> rfl
@[simp] theorem freshSel_port (sel : FreshSel) (s : State) : (freshSel sel s).2.port = s.port := by
  cases sel <;> rfl

/-- A selection takes one draw when it is random, none when it is forced (R159). -/
theorem freshSel_draws (sel : FreshSel) (s : State) :
    (freshSel sel s).2.draws = s.draws + if sel = .random then 1 else 0 := by
  cases sel <;> rfl

/-! ### The command bodies -/

theorem cfgCommitBody_eq (s : State) :
    commandBody .cfgCommit s =
      if s.block.cfgState = .ready then raiseIn .configLocked 0 s
      else if configCheck s.policy s.block ≠ 0 then raiseIn .configError (configCheck s.policy s.block) s
      else onBlock (fun b => { b with cfgState := .ready }) s := rfl

theorem generateBody_eq (sel : FreshSel) (s : State) :
    commandBody (.generate sel) s =
      if s.block.cfgState = .ready then onBlock (emitCode s.block.idIn (freshSel sel s).1) (freshSel sel s).2
      else raiseIn .notConfigured 0 s := rfl

theorem parseBody_eq (s : State) :
    commandBody .parse s =
      if s.block.cfgState = .ready then
        (match parseCode s.block.key s.block.alpha s.block.codeInLen s.block.codeIn with
        | .error (e, c) => raiseIn e c s
        | .ok (id, f) => onBlock (writeParsed id f) s)
      else raiseIn .notConfigured 0 s := rfl

theorem batchStartBody_eq (s : State) :
    commandBody .batchStart s =
      if s.block.cfgState = .ready then
        (if batchOverflows s.block then raiseIn .encodingRange 0 s else onBlock loadBatch s)
      else raiseIn .notConfigured 0 s := rfl

theorem batchNextBody_eq (sel : FreshSel) (s : State) :
    commandBody (.batchNext sel) s =
      if s.block.cfgState = .ready then
        (if s.block.batchRemaining = 0 then raiseIn .batchEmpty 0 s
        else onBlock (fun b => advanceBatch (emitCode b.batchNextId (freshSel sel s).1 b)) (freshSel sel s).2)
      else raiseIn .notConfigured 0 s := rfl

/-- The errors of the parse function: a format error with its two kinds of cause, or a signature mismatch (R204, R208). -/
theorem parseCode_error {key : KeyTable} {alpha : Alphabet} {len : Word} {str : Symbols} {e : ErrCode} {c : Byte}
    (h : parseCode key alpha len str = .error (e, c)) :
    (e = .decodeFormat ∧ (c = 0x01 ∨ ∃ k, c = unknownSymbolCause k)) ∨ (e = .signatureMismatch ∧ c = 0) := by
  unfold parseCode at h
  split at h
  · cases h; exact .inl ⟨rfl, .inl rfl⟩
  · split at h
    · cases h; exact .inl ⟨rfl, .inr ⟨_, rfl⟩⟩
    · rw [parsePayload_eq] at h
      split at h
      · cases h
      · cases h; exact .inr ⟨rfl, rfl⟩

/-- The errors a command can report on a state, with their causes (R251 to R259, R261). -/
inductive Reports (s : State) : Cmd → ErrCode → Byte → Prop
  | illegal : Reports s .illegal .illegalCommand 0
  | locked : s.block.cfgState = .ready → Reports s .cfgCommit .configLocked 0
  | config : s.block.cfgState = .unconfigured → configCheck s.policy s.block ≠ 0 →
      Reports s .cfgCommit .configError (configCheck s.policy s.block)
  | notConfigured (c : Cmd) : s.block.cfgState = .unconfigured → c ≠ .cfgCommit → Reports s c .notConfigured 0
  | range : s.block.cfgState = .ready → batchOverflows s.block → Reports s .batchStart .encodingRange 0
  | empty (sel : FreshSel) : s.block.cfgState = .ready → s.block.batchRemaining = 0 →
      Reports s (.batchNext sel) .batchEmpty 0
  | parse (e : ErrCode) (c : Byte) : s.block.cfgState = .ready →
      parseCode s.block.key s.block.alpha s.block.codeInLen s.block.codeIn = .error (e, c) → Reports s .parse e c

/-- Everything a command body can do: report an error, or have its effect. -/
theorem commandBody_cases (c : Cmd) (s : State) :
    (∃ e cause, Reports s c e cause ∧ commandBody c s = raiseIn e cause s) ∨
    (c = .nop ∧ commandBody c s = s) ∨
    (c = .cfgClear ∧ commandBody c s = onBlock clearConfiguration s) ∨
    (c = .cfgCommit ∧ s.block.cfgState = .unconfigured ∧ configCheck s.policy s.block = 0 ∧
      commandBody c s = onBlock (fun b => { b with cfgState := .ready }) s) ∨
    (∃ sel, c = .generate sel ∧ s.block.cfgState = .ready ∧
      commandBody c s = onBlock (emitCode s.block.idIn (freshSel sel s).1) (freshSel sel s).2) ∨
    (∃ id f, c = .parse ∧ s.block.cfgState = .ready ∧
      parseCode s.block.key s.block.alpha s.block.codeInLen s.block.codeIn = .ok (id, f) ∧
      commandBody c s = onBlock (writeParsed id f) s) ∨
    (c = .batchStart ∧ s.block.cfgState = .ready ∧ ¬ batchOverflows s.block ∧
      commandBody c s = onBlock loadBatch s) ∨
    (∃ sel, c = .batchNext sel ∧ s.block.cfgState = .ready ∧ s.block.batchRemaining ≠ 0 ∧
      commandBody c s =
        onBlock (fun b => advanceBatch (emitCode b.batchNextId (freshSel sel s).1 b)) (freshSel sel s).2) := by
  cases hs : s.block.cfgState with
  | unconfigured =>
    have hr : ¬ s.block.cfgState = .ready := by simp [hs]
    cases c with
    | nop => exact .inr (.inl ⟨rfl, rfl⟩)
    | cfgClear => exact .inr (.inr (.inl ⟨rfl, rfl⟩))
    | illegal => exact .inl ⟨_, _, .illegal, rfl⟩
    | cfgCommit =>
      rw [cfgCommitBody_eq, if_neg hr]
      by_cases hc : configCheck s.policy s.block = 0
      · exact .inr (.inr (.inr (.inl ⟨rfl, rfl, hc, if_neg (by simp [hc])⟩)))
      · exact .inl ⟨_, _, .config hs hc, if_pos hc⟩
    | generate sel =>
      exact .inl ⟨_, _, .notConfigured _ hs (by simp), by rw [generateBody_eq, if_neg hr]⟩
    | parse => exact .inl ⟨_, _, .notConfigured _ hs (by simp), by rw [parseBody_eq, if_neg hr]⟩
    | batchStart => exact .inl ⟨_, _, .notConfigured _ hs (by simp), by rw [batchStartBody_eq, if_neg hr]⟩
    | batchNext sel =>
      exact .inl ⟨_, _, .notConfigured _ hs (by simp), by rw [batchNextBody_eq, if_neg hr]⟩
  | ready =>
    cases c with
    | nop => exact .inr (.inl ⟨rfl, rfl⟩)
    | cfgClear => exact .inr (.inr (.inl ⟨rfl, rfl⟩))
    | illegal => exact .inl ⟨_, _, .illegal, rfl⟩
    | cfgCommit => exact .inl ⟨_, _, .locked hs, by rw [cfgCommitBody_eq, if_pos hs]⟩
    | generate sel =>
      exact .inr (.inr (.inr (.inr (.inl ⟨sel, rfl, rfl, by rw [generateBody_eq, if_pos hs]⟩))))
    | parse =>
      rw [parseBody_eq, if_pos hs]
      cases hp : parseCode s.block.key s.block.alpha s.block.codeInLen s.block.codeIn with
      | error ec => exact .inl ⟨ec.1, ec.2, .parse _ _ hs hp, rfl⟩
      | ok r => exact .inr (.inr (.inr (.inr (.inr (.inl ⟨r.1, r.2, rfl, rfl, rfl, rfl⟩)))))
    | batchStart =>
      rw [batchStartBody_eq, if_pos hs]
      by_cases ho : batchOverflows s.block
      · exact .inl ⟨_, _, .range hs ho, if_pos ho⟩
      · exact .inr (.inr (.inr (.inr (.inr (.inr (.inl ⟨rfl, rfl, ho, if_neg ho⟩))))))
    | batchNext sel =>
      rw [batchNextBody_eq, if_pos hs]
      by_cases hr : s.block.batchRemaining = 0
      · exact .inl ⟨_, _, .empty sel hs hr, if_pos hr⟩
      · exact .inr (.inr (.inr (.inr (.inr (.inr (.inr ⟨sel, rfl, rfl, hr, if_neg hr⟩))))))

/-- No command body touches the port. -/
@[simp] theorem commandBody_port (c : Cmd) (s : State) : (commandBody c s).port = s.port := by
  rcases commandBody_cases c s with ⟨_, _, _, h⟩ | ⟨_, h⟩ | ⟨_, h⟩ | ⟨_, _, _, h⟩ | ⟨_, _, _, h⟩ |
    ⟨_, _, _, _, _, h⟩ | ⟨_, _, _, h⟩ | ⟨_, _, _, _, h⟩ <;> rw [h] <;> simp

/-- No command body touches the policy (R42). -/
@[simp] theorem commandBody_policy (c : Cmd) (s : State) : (commandBody c s).policy = s.policy := by
  rcases commandBody_cases c s with ⟨_, _, _, h⟩ | ⟨_, h⟩ | ⟨_, h⟩ | ⟨_, _, _, h⟩ | ⟨_, _, _, h⟩ |
    ⟨_, _, _, _, _, h⟩ | ⟨_, _, _, h⟩ | ⟨_, _, _, _, h⟩ <;> rw [h] <;> simp

@[simp] theorem runCommand_port (c : Cmd) (s : State) : (runCommand (commandBody c) s).port = s.port.tail := by
  simp [runCommand]

@[simp] theorem runCommand_policy (c : Cmd) (s : State) : (runCommand (commandBody c) s).policy = s.policy := by
  simp [runCommand]

/-- A reported error is never OK. -/
theorem Reports.code_ne {s : State} {c : Cmd} {e : ErrCode} {x : Byte} (h : Reports s c e x) : e.code ≠ 0 := by
  cases h with
  | parse e c h1 h2 => rcases parseCode_error h2 with ⟨rfl, _⟩ | ⟨rfl, _⟩ <;> decide
  | _ => decide

/-- The prologue leaves no result (R120). -/
theorem prologue_noResults (b : Block) : NoResults (prologue b) := ⟨rfl, rfl, fun k => by simp, rfl⟩

/-- No command body touches an operand register (R28 to R31). -/
theorem commandBody_operands (c : Cmd) (s : State) : SameOperands (commandBody c s).block s.block := by
  rcases commandBody_cases c s with ⟨_, _, _, h⟩ | ⟨_, h⟩ | ⟨_, h⟩ | ⟨_, _, _, h⟩ | ⟨_, _, _, h⟩ |
    ⟨_, _, _, _, _, h⟩ | ⟨_, _, _, h⟩ | ⟨_, _, _, _, h⟩ <;> rw [h] <;> simp [SameOperands]

/-- A word that is not legal decodes to ILLEGAL. -/
theorem decodeCmd_of_not_legal {w : Word} (h : legal w = false) : decodeCmd w = .illegal := by
  unfold decodeCmd; simp [h]

theorem commandOf_illegalRow (w : Word) : commandOf (illegalRow w) = some .illegal := by
  unfold illegalRow; split_ifs <;> rfl

/-- The row of a command word runs the command the word decodes to. -/
theorem commandOf_cmdRow (w : Word) : commandOf (cmdRow w) = some (decodeCmd w) := by
  unfold cmdRow
  rcases h : decodeCmd w with _ | _ | _ | (_ | _) | _ | _ | (_ | _) | _ <;>
    first | rfl | exact commandOf_illegalRow w

/-! ### Reports and the configuration check, whole -/

/-- The configuration check passes exactly on what a commit asks (R131, R132). -/
theorem configCheck_zero_iff (s : State) : configCheck s.policy s.block = 0 ↔ Committed s := by
  constructor
  · intro h
    have bits : ∀ i, (configCheck s.policy s.block).getLsbD i = false := by intro i; rw [h]; simp
    have b0 := bits 0; have b1 := bits 1; have b2 := bits 2; have b3 := bits 3; have b4 := bits 4; have b5 := bits 5
    rw [configCheck_getLsbD] at b0 b1 b2 b3 b4 b5
    simp [keyMissing, alphaMissing, alphaDup, capacityCause, sigCapacityExceeded, mem_rows, mem_columns, Config.sigCapacity] at b0 b1 b2 b3 b4 b5
    refine ⟨b0, b1, b4, b5, ?_, fun h r => by have := b3 h r; omega⟩
    intro j k hjk
    rcases lt_trichotomy j k with h | h | h
    · exact absurd hjk (b2 j k h)
    · exact h
    · exact absurd hjk.symm (b2 k j h)
  · rintro ⟨a0, a1, a4, a5, inj, cap⟩
    apply BitVec.eq_of_getLsbD_eq
    intro i hi
    rw [configCheck_getLsbD]
    have k0 : keyMissing s.block = false := by simpa [keyMissing, mem_rows, mem_columns] using a0
    have k1 : alphaMissing s.block = false := by simpa [alphaMissing] using a1
    have k2 : alphaDup s.block = false := by
      simp only [alphaDup, List.any_eq_false]
      intro j _
      simp
      intro k hjk he
      exact absurd (inj j k he) (by omega)
    have k3 : capacityCause s.policy s.block = false := by
      simp [capacityCause, sigCapacityExceeded, mem_rows, Config.sigCapacity]
      exact fun h r => cap h r
    simp [k0, k1, k2, k3, a4, a5]

/-- The prologue followed by a report: results zero, the error recorded, nothing else (R120, R121). -/
theorem onlyRaised_raise (e : ErrCode) (x : Byte) (b : Block) : OnlyRaised e.code x b (raise e x (prologue b)) :=
  ⟨prologue_noResults b, ⟨rfl, rfl, rfl⟩, rfl, ⟨rfl, rfl, rfl, rfl, rfl, rfl⟩, ⟨rfl, rfl, rfl, rfl⟩, ⟨rfl, rfl⟩⟩

/-- A command whose body reports an error only reports it. -/
theorem exec_of_report {i : Instr} {c : Cmd} (hc : commandOf i = some c) {s : State} {e : ErrCode} {x : Byte}
    (h : commandBody c (onBlock prologue s) = raiseIn e x (onBlock prologue s)) :
    ∃ t, exec i s = .next t ∧ Ended .done s t ∧ OnlyRaised e.code x s.block t.block := by
  refine ⟨_, exec_command hc s, ?_⟩
  simp only [runCommand, h]
  exact ⟨⟨rfl, rfl, rfl, rfl⟩, onlyRaised_raise e x s.block⟩

/-- Two runs, one after the other. -/
theorem execAll_append (is js : List Instr) :
    ∀ s t : State, execAll is s = some t → execAll (is ++ js) s = execAll js t := by
  induction is with
  | nil => intro s t h; cases h; rfl
  | cons i is ih =>
    intro s t h
    simp only [List.cons_append, execAll] at h ⊢
    cases he : exec i s with
    | next u => rw [he] at h; exact ih u t h
    | fault f => rw [he] at h; cases h
    | refused r => rw [he] at h; cases h

/-! ### The step -/

/-- Every instruction answers a next state, takes its access off the port and leaves the policy (R262, R42). -/
theorem exec_answers (i : Instr) (s : State) :
    ∃ t, exec i s = .next t ∧ t.port = s.port.tail ∧ t.policy = s.policy := by
  rcases exec_cases i s with ⟨c, _, h⟩ | ⟨_, a, h⟩ | ⟨_, r, h⟩
  · exact ⟨_, h, by simp, by simp⟩
  · exact ⟨_, h, rfl, rfl⟩
  · exact ⟨_, h, rfl, rfl⟩

/-- Everything a step that answers a next state can be: nothing pending, an access that runs its instruction, an ignored
write, or a reset. -/
theorem step_cases {s t : State} (h : step s = .next t) :
    (s.port = [] ∧ t = s) ∨
    (∃ a rest i, s.port = .access a :: rest ∧ decode (.access a) = .ok i ∧ exec i s = .next t) ∨
    (∃ a rest u, s.port = .access a :: rest ∧ decode (.access a) = .error u ∧ t = finish .done s) ∨
    (∃ rest, s.port = .reset :: rest ∧ t = takeReset s) := by
  unfold step fetch at h
  match hp : s.port with
  | [] =>
    simp only [hp] at h
    cases h; exact .inl ⟨rfl, rfl⟩
  | .access a :: rest =>
    simp only [hp, fetchAccess] at h
    cases hd : decode (.access a) with
    | ok i =>
      simp only [hd] at h
      exact .inr (.inl ⟨a, rest, i, rfl, hd, h⟩)
    | error u =>
      simp only [hd] at h
      cases h; exact .inr (.inr (.inl ⟨a, rest, u, rfl, hd, rfl⟩))
  | .reset :: rest =>
    simp only [hp] at h
    cases h; exact .inr (.inr (.inr ⟨rest, rfl, rfl⟩))
  | .resetDuring a :: rest =>
    simp only [hp] at h
    cases h

end Sys2Proof.Machine
end

