-- ==== Sys2Proof/Laws/PerInstr.lean ====
section
/-! SUPPORT. Laws made per instruction. The family AccessShape: a well-formed instruction travels in an admitted access,
but for BUS_ERROR, whose access is not admitted (20_memory.md R61, 30_encoding.md R96). -/

namespace Sys2Proof.Laws.AccessShape
open Sys2Proof.Machine

/-- The row BUS_ERROR. -/
def isBusErrorRow : Instr → Bool
  | .busError _ => true
  | _ => false

/-- The shape of an instruction's access. -/
def Statement (i : Instr) : Prop :=
  wellFormed i = true → (accessOf i).isAdmitted = !isBusErrorRow i

theorem nop : Statement .nop := fun _ => rfl
theorem cfgClear : Statement .cfgClear := fun _ => rfl
theorem cfgCommit : Statement .cfgCommit := fun _ => rfl
theorem gen : Statement .gen := fun _ => rfl
theorem genF (f : Nibble) : Statement (.genF f) := fun _ => rfl
theorem parse : Statement .parse := fun _ => rfl
theorem batchStart : Statement .batchStart := fun _ => rfl
theorem batchNext : Statement .batchNext := fun _ => rfl
theorem batchNextF (f : Nibble) : Statement (.batchNextF f) := fun _ => rfl
theorem illegalOp7 (rest : BitVec 28) : Statement (.illegalOp7 rest) := fun _ => rfl
theorem illegalOp8F (rest : BitVec 28) (opLow : BitVec 3) : Statement (.illegalOp8F rest opLow) := fun _ => rfl
theorem illegalOther (w : Word) : Statement (.illegalOther w) := fun _ => rfl
theorem wrIdIn (v : Word) : Statement (.wrIdIn v) := fun _ => rfl
theorem wrCountIn (v : Word) : Statement (.wrCountIn v) := fun _ => rfl
theorem wrCodeInLen (v : Word) : Statement (.wrCodeInLen v) := fun _ => rfl
theorem wrCodeIn0 (v : Word) : Statement (.wrCodeIn0 v) := fun _ => rfl
theorem wrCodeIn1 (v : Word) : Statement (.wrCodeIn1 v) := fun _ => rfl
theorem wrCodeIn2 (v : Word) : Statement (.wrCodeIn2 v) := fun _ => rfl
theorem wrStatus (v : Word) : Statement (.wrStatus v) := fun _ => rfl
theorem wrCmd (w : Word) : Statement (.wrCmd w) := fun _ => rfl

theorem wrKey (r : Fin 16) (c : Fin 8) (v : Word) : Statement (.wrKey r c v) := by
  intro _
  have : admitted (keyOffset r c) 4 = true := by
    rw [admitted_iff, keyOffset]; omega
  simpa [accessOf, encode, Encoded.toAccess, BusAccess.isAdmitted, isBusErrorRow] using this

theorem wrAlpha (j : Fin 32) (v : Word) : Statement (.wrAlpha j v) := by
  intro _
  have : admitted (alphaOffset j) 4 = true := by
    rw [admitted_iff, alphaOffset]; omega
  simpa [accessOf, encode, Encoded.toAccess, BusAccess.isAdmitted, isBusErrorRow] using this

theorem rd (off : Nat) : Statement (.rd off) := fun h => h

theorem busError (a : BusAccess) : Statement (.busError a) := by
  intro h
  simpa [accessOf, encode, Encoded.toAccess, isBusErrorRow, wellFormed] using h

end Sys2Proof.Laws.AccessShape
end

