-- ==== Sys2Proof/Tests/Slice0.lean ====
section
/-! SUPPORT. Tests: expected values are the vectors of spec/95_test_vectors.md (each test names its vector) or words
written out from the encodings of 30_encoding.md. -/

namespace Sys2Proof.Tests
open Sys2Proof.Machine

-- One theorem after the other: many kernel evaluations at once would each hold a thread.
set_option Elab.async false

/-! ### Well-formedness refuses -/

/-- The NOP word is legal, so it is no "other illegal word" (R83). -/
theorem test_wf_refuses_legal_word : wellFormed (.illegalOther 0x00000000) = false := by decide

/-- OP 0x7 has a row of its own (R126). -/
theorem test_wf_refuses_reserved_op : wellFormed (.illegalOther 0x00000007) = false := by decide

/-- A misaligned read is not admitted (R61, V-A3). -/
theorem test_wf_refuses_misaligned_read : wellFormed (.rd 0x006) = false := by decide

/-- A read beyond the window is not admitted (R61, V-A5). -/
theorem test_wf_refuses_read_beyond_window : wellFormed (.rd 0x400) = false := by decide

/-- An admitted access is no BUS_ERROR (R61). -/
theorem test_wf_refuses_admitted_bus_error : wellFormed (.busError (.read 0x004 4)) = false := by decide

theorem test_wf_accepts : (wellFormed (.illegalOther 0x00000010) && wellFormed (.rd 0x3FC)
    && wellFormed (.busError (.write 0x008 2 0x1234))) = true := by decide

/-! ### Decoding: each row's word written out from its encoding (R81, R82; fields [31:12] [11:8] [7:5] [4] [3:0]) -/

theorem test_decode_nop : decode (.cmd 0b00000000000000000000_0000_000_0_0000) = .ok .nop := by decide
theorem test_decode_cfgClear : decode (.cmd 0b00000000000000000000_0000_000_0_0001) = .ok .cfgClear := by decide
theorem test_decode_cfgCommit : decode (.cmd 0b00000000000000000000_0000_000_0_0010) = .ok .cfgCommit := by decide
theorem test_decode_gen : decode (.cmd 0b00000000000000000000_0000_000_0_0011) = .ok .gen := by decide
theorem test_decode_genF : decode (.cmd 0b00000000000000000000_1101_000_1_0011) = .ok (.genF 13) := by decide
theorem test_decode_parse : decode (.cmd 0b00000000000000000000_0000_000_0_0100) = .ok .parse := by decide
theorem test_decode_batchStart : decode (.cmd 0b00000000000000000000_0000_000_0_0101) = .ok .batchStart := by decide
theorem test_decode_batchNext : decode (.cmd 0b00000000000000000000_0000_000_0_0110) = .ok .batchNext := by decide
theorem test_decode_batchNextF :
    decode (.cmd 0b00000000000000000000_0101_000_1_0110) = .ok (.batchNextF 5) := by decide
theorem test_decode_illegalOp7 :
    decode (.cmd 0b00000000000000000000_0001_000_0_0111) = .ok (.illegalOp7 0x10) := by decide
theorem test_decode_illegalOp8F :
    decode (.cmd 0b10000000000000000000_0000_000_1_1101) = .ok (.illegalOp8F 0x8000001 0b101) := by decide
/-- F = 0 with FRESH = 1 (section 3.7 of the vectors: 0x00000103). -/
theorem test_decode_illegalOther_fresh :
    decode (.cmd 0b00000000000000000000_0001_000_0_0011) = .ok (.illegalOther 0x00000103) := by decide
/-- F on PARSE, reserved bit 7, reserved bit 12 (section 3.7 of the vectors). -/
theorem test_decode_illegalOther_bits :
    ([0x00000014, 0x00000083, 0x00001003].map decodeCmd) = [.illegal, .illegal, .illegal] := by decide

theorem test_decode_wrKey : decode (.access (.write 0x174 4 11)) = .ok (.wrKey 3 5 11) := by decide
theorem test_decode_wrKey_ends :
    (decodeAccess (.write 0x100 4 1), decodeAccess (.write 0x2FC 4 2))
      = (.ok (.wrKey 0 0 1), .ok (.wrKey 15 7 2)) := by decide
theorem test_decode_wrAlpha : decode (.access (.write 0x37C 4 0x39)) = .ok (.wrAlpha 31 0x39) := by decide
theorem test_decode_wrIdIn : decode (.access (.write 0x008 4 100001)) = .ok (.wrIdIn 100001) := by decide
theorem test_decode_wrCountIn : decode (.access (.write 0x00C 4 3)) = .ok (.wrCountIn 3) := by decide
theorem test_decode_wrCodeInLen : decode (.access (.write 0x010 4 10)) = .ok (.wrCodeInLen 10) := by decide
theorem test_decode_wrCodeIn0 : decode (.access (.write 0x014 4 1)) = .ok (.wrCodeIn0 1) := by decide
theorem test_decode_wrCodeIn1 : decode (.access (.write 0x018 4 1)) = .ok (.wrCodeIn1 1) := by decide
theorem test_decode_wrCodeIn2 : decode (.access (.write 0x01C 4 1)) = .ok (.wrCodeIn2 1) := by decide
theorem test_decode_wrStatus : decode (.access (.write 0x004 4 8)) = .ok (.wrStatus 8) := by decide
theorem test_decode_wrCmd : decode (.access (.write 0x000 4 0x13)) = .ok (.wrCmd 0x13) := by decide
theorem test_decode_rd : decode (.access (.read 0x3FC 4)) = .ok (.rd 0x3FC) := by decide
/-- V-A1, V-A4. -/
theorem test_decode_busError :
    (decodeAccess (.read 0x004 1), decodeAccess (.write 0x000 1 0x03))
      = (.ok (.busError (.read 0x004 1)), .ok (.busError (.write 0x000 1 0x03))) := by decide
/-- V-A9: a write to ID_OUT has no row (R74). -/
theorem test_decode_ignored : decode (.access (.write 0x020 4 5)) = .error (.ignoredWrite 0x020 5) := by decide

theorem test_table_words :
    (decodeTableWord 32 0x00000F13, decodeTableWord 16 0x0008, decodeTableWord 16 0x0000, decodeTableWord 16 0x0040)
      = (some (.genF 15), some (.wrIdIn 0), some (.wrCmd 0), none) := by decide

/-! ### The test configuration (95_test_vectors.md section 2) -/

def t1Rows : List KeyRow :=
  [#v[23, 7, 91, 45, 12, 68, 3, 54], #v[81, 36, 19, 72, 5, 60, 27, 98],
   #v[14, 88, 41, 9, 77, 30, 62, 17], #v[50, 2, 66, 33, 95, 11, 84, 26],
   #v[38, 73, 8, 57, 21, 99, 46, 64], #v[6, 52, 29, 87, 40, 15, 71, 93],
   #v[61, 24, 97, 1, 58, 43, 10, 35], #v[79, 48, 13, 70, 31, 86, 55, 4]]

/-- Table T1: rows 8 to 15 repeat rows 0 to 7. -/
def t1 : KeyTable := Vector.ofFn fun r => t1Rows.getD (r.val % 8) (Vector.replicate 8 0)

/-- T1 with another row 0: tables T2, T3, T4. -/
def t1With (row0 : KeyRow) : KeyTable := t1.set 0 row0

/-- Alphabet A1. -/
def a1 : Alphabet :=
  #v[0x41, 0x42, 0x43, 0x44, 0x45, 0x46, 0x47, 0x48, 0x4A, 0x4B, 0x4C, 0x4D, 0x4E, 0x50, 0x51, 0x52,
     0x53, 0x54, 0x55, 0x56, 0x57, 0x58, 0x59, 0x5A, 0x32, 0x33, 0x34, 0x35, 0x36, 0x37, 0x38, 0x39]

/-- A block with all of a KeyTable and an Alphabet written, not committed. -/
def loaded (key : KeyTable) (alpha : Alphabet) : Block :=
  { Block.reset with
    key := key, keyValid := Vector.replicate 16 (Vector.replicate 8 true),
    alpha := alpha, alphaValid := Vector.replicate 32 true }

def stateOf (b : Block) : State := { State.reset with block := b }

/-- A loaded block, not committed. -/
def unconfigured : State := stateOf (loaded t1 a1)

/-- The block READY with T1 and A1 under TRUNCATE. -/
def ready : State := stateOf { loaded t1 a1 with cfgState := .ready }

/-- READY with T1, A1 and an identifier in ID_IN. -/
def readyWith (id : Word) : State := stateOf { ready.block with idIn := id }

/-- READY with a code of 10 bytes in CODE_IN. -/
def readyWithCode (str : Symbols) : State := stateOf { ready.block with codeIn := str, codeInLen := 10 }

/-- READY with a batch under way. -/
def readyBatch (next left : Word) : State :=
  stateOf { ready.block with batchNextId := next, batchRemaining := left }

/-- What `f` gives on the next state of an instruction. -/
def after {α : Type} (i : Instr) (s : State) (f : State → α) : Option α :=
  match exec i s with
  | .next t => some (f t)
  | .fault _ => none
  | .refused _ => none

/-- What a read of the offset returns. -/
def reads (off : Nat) (s : State) : Word := readReg s.policy s.block off

/-- STATUS and the three words of CODE_OUT. -/
def outcome (s : State) : List Word := [reads 0x004 s, reads 0x028 s, reads 0x02C s, reads 0x030 s]

/-- STATUS, ID_OUT and FRESH_OUT. -/
def parsed (s : State) : List Word := [reads 0x004 s, reads 0x020 s, reads 0x024 s]

/-- "BHUB552SWZ" as bytes. -/
def bhub : Symbols := #v[0x42, 0x48, 0x55, 0x42, 0x35, 0x35, 0x32, 0x53, 0x57, 0x5A]

/-! ### One step of each instruction -/

/-- R125's example. -/
theorem test_nop : after .nop (stateOf { ready.block with outValid := true, codeOut := bhub }) outcome
    = some [0x00000001, 0, 0, 0] := by decide +kernel

/-- V-C18, V-B13. -/
theorem test_cfgClear : after .cfgClear (readyBatch 8 2)
    (fun t => [reads 0x004 t, reads 0x100 t, reads 0x300 t, reads 0x034 t, reads 0x038 t])
    = some [0, 0, 0, 0, 0] := by decide +kernel

/-- V-C1. -/
theorem test_cfgCommit_empty : after .cfgCommit State.reset (reads 0x004) = some 0x00000718 := by decide +kernel

/-- V-C12. -/
theorem test_cfgCommit : after .cfgCommit unconfigured (reads 0x004) = some 0x00000001 := by decide +kernel

/-- V-C6 and V-C8: T2 and T3 under REJECT. -/
theorem test_cfgCommit_capacity :
    ([t1With (Vector.replicate 8 137), t1With #v[1092, 0, 0, 0, 0, 0, 0, 0]].map fun k =>
      after .cfgCommit { stateOf (loaded k a1) with policy := .reject } (reads 0x004))
    = [some 0x00000818, some 0x00000001] := by decide +kernel

/-- V-G1. -/
theorem test_genF : after (.genF 0) (readyWith 0x000186A1) outcome
    = some [0x00000003, 0x42554842, 0x53323535, 0x00005A57] := by decide +kernel

/-- V-G7. -/
theorem test_genF_row3 : after (.genF 3) (readyWith 0x12345678) outcome
    = some [0x00000003, 0x4E554D44, 0x4D4D4232, 0x0000554B] := by decide +kernel

/-- V-O1: the truncated signature under T2. -/
theorem test_genF_truncates :
    after (.genF 0) (stateOf { (loaded (t1With (Vector.replicate 8 137)) a1) with
      cfgState := .ready, idIn := 0xFFFFFFFF }) outcome
    = some [0x00000003, 0x42534441, 0x334E4756, 0x00004756] := by decide +kernel

/-- GEN on a READY block draws once, and its identifier is the operand; not configured, it draws nothing. -/
theorem test_gen : after .gen (readyWith 7) (fun t => (t.block.idOut, t.draws)) = some (7, 1) := by decide +kernel
theorem test_gen_notConfigured : after .gen State.reset (fun t => (reads 0x004 t, t.draws))
    = some (0x00000068, 0) := by decide +kernel

/-- V-P1. -/
theorem test_parse : after .parse (readyWithCode bhub) parsed = some [0x00000003, 0x000186A1, 0] := by decide +kernel

/-- V-P5 (unknown symbol at 9) and V-P11 (signature mismatch). -/
theorem test_parse_errors :
    ([bhub.set 9 0x49, bhub.set 9 0x59].map fun str => after .parse (readyWithCode str) parsed)
    = [some [0x00009239, 0, 0], some [0x00000059, 0, 0]] := by decide +kernel

/-- V-B1. -/
theorem test_batchStart :
    after .batchStart (stateOf { ready.block with idIn := 7, countIn := 3 })
      (fun t => [reads 0x004 t, reads 0x034 t, reads 0x038 t]) = some [0x00000005, 7, 3] := by decide +kernel

/-- V-B7 and V-B8: the top of the identifier range. -/
theorem test_batchStart_range :
    (([2, 1] : List Word).map fun n =>
      after .batchStart (stateOf { ready.block with idIn := 0xFFFFFFFF, countIn := n }) (reads 0x004))
    = [some 0x00000029, some 0x00000005] := by decide +kernel

/-- V-B2. -/
theorem test_batchNextF : after (.batchNextF 2) (readyBatch 7 3)
    (fun t => outcome t ++ [reads 0x020 t, reads 0x034 t, reads 0x038 t])
    = some [0x00000007, 0x4D514841, 0x5A564B57, 0x0000475A, 7, 8, 2] := by decide +kernel

/-- V-B6: the wrap after the last identifier. -/
theorem test_batchNextF_wrap : after (.batchNextF 5) (readyBatch 0xFFFFFFFF 1)
    (fun t => outcome t ++ [reads 0x034 t, reads 0x038 t])
    = some [0x00000003, 0x5951534D, 0x36535550, 0x00004345, 0, 0] := by decide +kernel

/-- V-B5. -/
theorem test_batchNext_empty : after .batchNext ready (fun t => (reads 0x004 t, t.draws))
    = some (0x00000099, 0) := by decide +kernel
theorem test_batchNext : after .batchNext (readyBatch 7 3) (fun t => (reads 0x020 t, reads 0x038 t, t.draws))
    = some (7, 2, 1) := by decide +kernel

/-- Section 3.7: 0x00000007, 0x0000000F and 0x00000103 on a READY block. -/
theorem test_illegalOp7 : after (.illegalOp7 0) ready (reads 0x004) = some 0x00000079 := by decide +kernel
theorem test_illegalOp8F : after (.illegalOp8F 0 7) ready (reads 0x004) = some 0x00000079 := by decide +kernel
theorem test_illegalOther : after (.illegalOther 0x00000103) (readyBatch 7 3) (fun t => [reads 0x004 t, reads 0x038 t])
    = some [0x0000007D, 3] := by decide +kernel

/-- R127's example, and V-C9 (a value of 2^16). -/
theorem test_wrKey : after (.wrKey 3 5 11) State.reset (reads 0x174) = some 0x0000000B := by decide +kernel
theorem test_wrKey_range : after (.wrKey 2 3 0x00010000) unconfigured
    (fun t => (reads (0x100 + 32 * 2 + 4 * 3) t, t.block.keyRangeErr)) = some (0, true) := by decide +kernel

/-- V-C10, and V-C15. -/
theorem test_wrAlpha_range : after (.wrAlpha 0 0x00000141) unconfigured
    (fun t => (reads 0x300 t, t.block.alphaRangeErr)) = some (0x41, true) := by decide +kernel
theorem test_wrAlpha_locked : after (.wrAlpha 5 0x30) ready (fun t => [reads 0x004 t, reads 0x314 t])
    = some [0x00000089, 0x46] := by decide +kernel

theorem test_wrIdIn : after (.wrIdIn 100001) ready (reads 0x008) = some 0x000186A1 := by decide +kernel
theorem test_wrCountIn : after (.wrCountIn 3) (readyBatch 7 3) (fun t => [reads 0x00C t, reads 0x038 t])
    = some [3, 3] := by decide +kernel
/-- V-P9. -/
theorem test_wrCodeInLen : after (.wrCodeInLen 0x8000000A) ready (reads 0x010) = some 0x8000000A := by decide +kernel
/-- V-A14. -/
theorem test_wrCodeIn0 : after (.wrCodeIn0 0x42554842) ready (fun t => (t.block.codeIn.toList.take 5))
    = some [0x42, 0x48, 0x55, 0x42, 0] := by decide +kernel
theorem test_wrCodeIn1 : after (.wrCodeIn1 0x53323535) ready (reads 0x018) = some 0x53323535 := by decide +kernel
/-- V-A13. -/
theorem test_wrCodeIn2 : after (.wrCodeIn2 0xFFFF5A57) ready (reads 0x01C) = some 0x00005A57 := by decide +kernel

/-- V-A11 and V-A10. -/
theorem test_wrStatus :
    (([0x00000008, 0xFFFFFFF7] : List Word).map fun v =>
      after (.wrStatus v) (stateOf (raise .signatureMismatch 0 ready.block)) (reads 0x004))
    = [some 0x00000051, some 0x00000059] := by decide +kernel

/-- V-G1 through the write to CMD, and the illegal word 0x00000014 of section 3.7. -/
theorem test_wrCmd :
    (([0x00000013, 0x00000014] : List Word).map fun w => after (.wrCmd w) (readyWith 0x000186A1) outcome)
    = [some [0x00000003, 0x42554842, 0x53323535, 0x00005A57], some [0x00000079, 0, 0, 0]] := by decide +kernel

/-- V-A12 and V-A6. -/
theorem test_rd : (after (.rd 0x03C) State.reset (·.response), after (.rd 0x040) ready (·.response))
    = (some (.data 0x00081000), some (.data 0)) := by decide +kernel
theorem test_rd_reject : reads 0x03C { State.reset with policy := .reject } = 0x00081001 := by decide +kernel

/-- V-A2. -/
theorem test_busError : after (.busError (.write 0x008 2 0x1234)) ready (fun t => (t.response, t.block.idIn))
    = some (.busError, 0) := by decide +kernel

/-! ### Steps -/

/-- The step takes the access at the head of the port (V-G4's code word 0, through the bus). -/
theorem test_step_runs_head :
    (match step ((readyWith 1).withFetchWord 32 0x00000013) with
      | .next t => some (reads 0x028 t, t.port)
      | _ => none) = some (0x424E4441, []) := by decide +kernel

/-- V-A7: an ignored write completes. -/
theorem test_step_ignored_write :
    (match step { ready with port := [.access (.write 0x380 4 1), .reset] } with
      | .next t => some (reads 0x004 t, t.response, t.port)
      | _ => none) = some (0x00000001, .done, [.reset]) := by decide +kernel

/-- A reset between accesses returns the block to its reset state and leaves the draw counter (R280, R282). -/
theorem test_step_reset :
    (match step { ready with port := [.reset], draws := 5 } with
      | .next t => some (t.block.cfgState, reads 0x100 t, t.draws)
      | _ => none) = some (.unconfigured, 0, 5) := by decide +kernel

/-! ### Witnesses: states and operands that meet the hypotheses of the statements -/

/-- Table T2: row 0 of eight entries 137, above the capacity. -/
def t2 : KeyTable := t1With (Vector.replicate 8 137)

/-- READY with table T2, whose sum at row 0 and identifier 0xFFFFFFFF is 16440 (V-O1). -/
def readyT2 (id : Word) : State := stateOf { loaded t2 a1 with cfgState := .ready, idIn := id }

/-- READY with ID_IN and COUNT_IN set. -/
def readyRange (first count : Word) : State := stateOf { ready.block with idIn := first, countIn := count }

/-- The indices of "BHUB552SWZ" in A1. -/
def bhubIndex (k : Fin 10) : SymIndex := (symIndex a1 bhub[k]).getD 0

theorem a1_injective : Safety.AlphaInjective a1 := by unfold Safety.AlphaInjective; decide +kernel

theorem t1_capacity : Safety.CapacityRespected t1 := by unfold Safety.CapacityRespected; decide +kernel

theorem committed_of_a1 {s : State} (h1 : s.block.keyValid = Vector.replicate 16 (Vector.replicate 8 true))
    (h2 : s.block.alphaValid = Vector.replicate 32 true) (h3 : s.block.keyRangeErr = false)
    (h4 : s.block.alphaRangeErr = false) (h5 : s.block.alpha = a1)
    (h6 : s.policy = .reject → Safety.CapacityRespected s.block.key) : Safety.Committed s :=
  ⟨fun r c => by simp [h1], fun j => by simp [h2], h3, h4, h5 ▸ a1_injective, h6⟩

/-- CommitOfSoundTablesSucceeds, under TRUNCATE and under REJECT. -/
theorem witness_committed : Safety.Committed unconfigured ∧ Safety.Committed { unconfigured with policy := .reject } ∧
    unconfigured.block.cfgState = .unconfigured :=
  ⟨committed_of_a1 rfl rfl rfl rfl rfl (fun h => by cases h),
    committed_of_a1 rfl rfl rfl rfl rfl (fun _ => t1_capacity), rfl⟩

/-- CommitFailureOnlyReports: the block at reset has written nothing. -/
theorem witness_not_committed : ¬ Safety.Committed State.reset ∧ State.reset.block.cfgState = .unconfigured :=
  ⟨fun h => absurd (h.keyWritten 0 0) (by decide), rfl⟩

/-- A READY block with the full tables of A1, no results and no error meets the invariant when its batch does. -/
theorem inv_of_ready {s : State} (hc : Safety.Committed s) (h1 : s.block.cfgState = .ready) (h2 : s.block.err = 0)
    (h3 : s.block.cause = 0) (h4 : s.block.outValid = false) (h5 : Safety.NoResults s.block)
    (h6 : s.block.batchRemaining ≠ 0 →
      s.block.batchNextId.toNat + s.block.batchRemaining.toNat - 1 ≤ Config.maxIdentifier) : Safety.Inv s where
  committed _ := hc
  status := ⟨by simp [h2], by simp [h2], by simp [h2], by simp [h3]⟩
  results := ⟨fun _ => h5, by simp [h4], by simp [h4], by simp [h4]⟩
  batch := ⟨by simp [h1], h6⟩
  unwritten := ⟨fun r c h => absurd h (by rw [hc.keyWritten r c]; simp),
    fun j h => absurd h (by rw [hc.alphaWritten j]; simp)⟩

/-- EveryStepKeepsInvariant: a state with the invariant from which a step goes on. -/
theorem witness_inv_step : Safety.Inv { readyBatch 7 3 with port := [.access (.write 0x000 4 0x00000216)] } ∧
    ∃ t, step { readyBatch 7 3 with port := [.access (.write 0x000 4 0x00000216)] } = .next t :=
  ⟨inv_of_ready (committed_of_a1 rfl rfl rfl rfl rfl (fun h => by cases h)) rfl rfl rfl rfl
    ⟨rfl, rfl, fun k => by simp [readyBatch, ready, stateOf, loaded, Block.reset], rfl⟩ (fun _ => by decide), _, rfl⟩

/-- GenerateThenParseOnTheBus: a sum that fits (V-G1, at the edge of no capacity) and one that does not (V-O1). -/
theorem witness_generate_then_parse :
    Safety.Inv (readyWith 0x000186A1) ∧ sigSum t1 0 0x000186A1 ≤ 16383 ∧
    Safety.Inv (readyT2 0xFFFFFFFF) ∧ 16383 < sigSum t2 0 0xFFFFFFFF ∧ sigSum t2 0 0xFFFFFFFE ≤ 16383 :=
  ⟨inv_of_ready (committed_of_a1 rfl rfl rfl rfl rfl (fun h => by cases h)) rfl rfl rfl rfl
      ⟨rfl, rfl, fun k => by simp [readyWith, ready, stateOf, loaded, Block.reset], rfl⟩ (fun h => absurd rfl h),
    by decide +kernel,
    inv_of_ready (committed_of_a1 rfl rfl rfl rfl rfl (fun h => by cases h)) rfl rfl rfl rfl
      ⟨rfl, rfl, fun k => by simp [readyT2, stateOf, loaded, Block.reset], rfl⟩ (fun h => absurd rfl h),
    by decide +kernel, by decide +kernel⟩

/-- BatchCorrespondence: a batch of three that ends at the last identifier, with another instruction in between. -/
theorem witness_batch_correspondence :
    Safety.Inv (readyRange 0xFFFFFFFD 3) ∧
    (∃ s, exec .batchStart (readyRange 0xFFFFFFFD 3) = .next s ∧ s.block.err = 0) ∧
    ([.batchNextF 2, .wrIdIn 9, .batchNextF 0] : List Instr).all Safety.keepsBatch = true ∧
    ([.batchNextF 2, .wrIdIn 9, .batchNextF 0] : List Instr).countP Safety.runsBatchNext = 2 ∧
    Safety.runsBatchNext (.batchNextF 5) = true ∧ sigSum t1 5 0xFFFFFFFF ≤ 16383 :=
  ⟨inv_of_ready (committed_of_a1 rfl rfl rfl rfl rfl (fun h => by cases h)) rfl rfl rfl rfl
      ⟨rfl, rfl, fun k => by simp [readyRange, ready, stateOf, loaded, Block.reset], rfl⟩ (fun h => absurd rfl h),
    ⟨_, rfl, by decide +kernel⟩, by decide, by decide, by decide, by decide +kernel⟩

/-- StepRunsDecodedInstruction: an access that decodes, at the head of the port. -/
theorem witness_step_runs : (ready.withFetchWord 32 0x00000013).port = [.access (.write 0x000 4 0x00000013)] ∧
    decode (.access (.write 0x000 4 0x00000013)) = .ok (.wrCmd 0x00000013) := ⟨rfl, by decide⟩

/-- StepStopsOnlyOnResetDuringAccess: one state for each clause. -/
theorem witness_step_clauses : State.reset.port = [] ∧
    (∃ a rest, ({ ready with port := [.resetDuring (.read 0x004 4)] } : State).port = .resetDuring a :: rest) ∧
    (¬ ∃ a rest, (ready.withFetchWord 32 0x00000000).port = .resetDuring a :: rest) :=
  ⟨rfl, ⟨_, _, rfl⟩, fun ⟨_, _, h⟩ => by cases h⟩

/-- UnadmittedAccessOnlyAnswersBusError: both sides of the edge of the window. -/
theorem witness_admission : BusAccess.isAdmitted (.read 0x3FC 4) = true ∧ BusAccess.isAdmitted (.read 0x400 4) = false ∧
    BusAccess.isAdmitted (.write 0x3FD 4 1) = false ∧ BusAccess.isAdmitted (.write 0x008 2 1) = false ∧
    ({ ready with port := [.access (.read 0x400 4)] } : State).port = .access (.read 0x400 4) :: [] := by decide

/-- UnmappedAndReadOnlyIgnoreWrites: the edges of the ranges, and the neighbours that are outside them. -/
theorem witness_ignored_ranges : Safety.isReadOnly 0x020 ∧ Safety.isReadOnly 0x03C ∧ Safety.isUnmapped 0x040 ∧
    Safety.isUnmapped 0x0FC ∧ Safety.isUnmapped 0x380 ∧ Safety.isUnmapped 0x3FC ∧
    ¬ Safety.isReadOnly 0x01C ∧ ¬ Safety.isUnmapped 0x03C ∧ ¬ Safety.isUnmapped 0x100 ∧ ¬ Safety.isUnmapped 0x37C ∧
    ({ ready with port := [.access (.write 0x03C 4 1)] } : State).port = .access (.write 0x03C 4 1) :: [] := by
  decide

/-- ResetClearsTheBlock and RegistersReadZeroAfterReset. -/
theorem witness_reset : ({ ready with port := [.reset] } : State).port = .reset :: [] ∧
    State.reset.block = Block.reset ∧ admitted 0x000 4 = true ∧ admitted 0x03C 4 = true ∧ admitted 0x3FC 4 = true :=
  ⟨rfl, rfl, by decide, by decide, by decide⟩

/-- ReadReturnsRegister: the first and last offset of each window (no two clauses name one offset). -/
theorem witness_read_offsets : (([0x000, 0x004, 0x008, 0x010, 0x014, 0x01C, 0x020, 0x028, 0x030, 0x038, 0x03C,
    0x040, 0x3FC, keyOffset 0 0, keyOffset 15 7, alphaOffset 0, alphaOffset 31] : List Nat).all fun off => admitted off 4) = true ∧
    keyOffset 15 7 < alphaOffset 0 ∧ 0x038 < keyOffset 0 0 := by decide

/-- KeyWriteStoresEntry, AlphaWriteStoresSymbol (unconfigured), LockedTableWriteOnlyReports (ready); the edges of the
two value ranges. -/
theorem witness_table_writes : State.reset.block.cfgState = .unconfigured ∧ ready.block.cfgState = .ready ∧
    ¬ 2 ^ 16 ≤ (0x0000FFFF : Word).toNat ∧ 2 ^ 16 ≤ (0x00010000 : Word).toNat ∧
    ¬ 2 ^ 8 ≤ (0x000000FF : Word).toNat ∧ 2 ^ 8 ≤ (0x00000100 : Word).toNat := by decide

/-- IllegalWordOnlyReports: each of the three rows, and an illegal word. -/
theorem witness_illegal : Safety.isIllegalRow (.illegalOp7 0) = true ∧ Safety.isIllegalRow (.illegalOp8F 0 7) = true ∧
    Safety.isIllegalRow (.illegalOther 0x00000103) = true ∧ legal 0x00000103 = false ∧ legal 0x0000000F = false ∧
    legal 0x00000007 = false := by decide

/-- CommandErrorsArePrecise: a command that fails and one that succeeds. -/
theorem witness_command_errors : (∃ t, exec (.wrCmd 0x00000014) ready = .next t ∧ t.block.err ≠ 0) ∧
    (∃ t, exec (.wrCmd 0x00000013) ready = .next t ∧ t.block.err = 0) :=
  ⟨⟨_, rfl, by decide +kernel⟩, ⟨_, rfl, by decide +kernel⟩⟩

/-- CapacityCheckIsExact: the edge of a row's capacity, 1092 (tables T3 and T4). -/
theorem witness_capacity : rowSum (t1With #v[1092, 0, 0, 0, 0, 0, 0, 0])[0] ≤ 1092 ∧
    ¬ rowSum (t1With #v[1093, 0, 0, 0, 0, 0, 0, 0])[0] ≤ 1092 := by decide +kernel

/-- LockKeepsTables: a table write while READY. -/
theorem witness_lock : (∃ t, step { ready with port := [.access (.write 0x100 4 1)] } = .next t) ∧
    ({ ready with port := [.access (.write 0x100 4 1)] } : State).port.head? ≠ some .reset ∧
    ({ ready with port := [.access (.write 0x100 4 1)] } : State).port.head?
      ≠ some (.access (.write 0x000 4 0x00000001)) := ⟨⟨_, rfl⟩, by decide, by decide⟩

/-- GenerateWritesCodeOfIdIn, UnconfiguredCommandsReportNotConfigured and ForcedGenerateIsDeterminedByOperands: states
that differ in a status register only. -/
theorem witness_generate : ready.block.cfgState = .ready ∧ State.reset.block.cfgState = .unconfigured ∧
    Safety.needsCodec .gen = true ∧ Safety.needsCodec (.batchNextF 0) = true ∧
    ({ ready.block with errSticky := true } : Block) ≠ ready.block ∧
    (∃ t, exec (.genF 3) ready = .next t) ∧ ∃ t, exec (.genF 3) (stateOf { ready.block with errSticky := true }) = .next t :=
  ⟨rfl, rfl, rfl, rfl, by decide +kernel, ⟨_, rfl⟩, ⟨_, rfl⟩⟩

/-- BatchStartLoadsRange and BatchStartRefusesOverflow: count 0, the last range that fits, the first that does not. -/
theorem witness_batch_start : (readyRange 0xFFFFFFFF 0).block.countIn = 0 ∧
    (readyRange 0xFFFFFFFF 1).block.idIn.toNat + (readyRange 0xFFFFFFFF 1).block.countIn.toNat ≤ 2 ^ 32 ∧
    (readyRange 0xFFFFFFFF 2).block.countIn ≠ 0 ∧
    0xFFFFFFFF < (readyRange 0xFFFFFFFF 2).block.idIn.toNat + (readyRange 0xFFFFFFFF 2).block.countIn.toNat - 1 := by
  decide

/-- BatchNextEmitsAndAdvances and EmptyBatchOnlyReports. -/
theorem witness_batch_next : (readyBatch 0xFFFFFFFF 1).block.batchRemaining ≠ 0 ∧
    (readyBatch 0xFFFFFFFF 1).block.cfgState = .ready ∧ ready.block.batchRemaining = 0 := by decide

/-- BatchRegistersChangeOnlyByBatchCommands: a GENERATE during a batch. -/
theorem witness_keeps_batch : Safety.keepsBatch (.genF 0) = true ∧ Safety.runsBatchNext (.genF 0) = false ∧
    ∃ t, exec (.genF 0) (readyBatch 7 3) = .next t := ⟨rfl, rfl, ⟨_, rfl⟩⟩

/-- ParseShowsRecoveredIdentifier: "BHUB552SWZ" under T1 and A1 (V-P1). -/
theorem witness_parse_ok : (readyWithCode bhub).block.cfgState = .ready ∧ (readyWithCode bhub).block.codeInLen = 10 ∧
    Safety.SymbolsAre a1 bhub bhubIndex ∧ Safety.SignatureHolds t1 (Safety.unpackNat bhubIndex) :=
  ⟨rfl, rfl, by unfold Safety.SymbolsAre; decide +kernel, by unfold Safety.SignatureHolds; decide +kernel⟩

/-- ParseReportsSignatureMismatch: its last symbol changed from Z to Y, index 22 (V-P11). -/
theorem witness_parse_mismatch :
    Safety.SymbolsAre a1 (bhub.set 9 0x59) (fun k => if k = 9 then 22 else bhubIndex k) ∧
    ¬ Safety.SignatureHolds t1 (Safety.unpackNat fun k => if k = 9 then 22 else bhubIndex k) :=
  ⟨by unfold Safety.SymbolsAre; decide +kernel, by unfold Safety.SignatureHolds; decide +kernel⟩

/-- ParseReportsFormatErrors: a wrong length, and an unknown symbol (0x49) at the first and at the last position. -/
theorem witness_parse_format : (stateOf { ready.block with codeIn := bhub, codeInLen := 9 }).block.codeInLen ≠ 10 ∧
    (∀ x : Fin 32, a1[x] ≠ (bhub.set 0 0x49)[0]) ∧
    (∀ j : Fin 10, j < 9 → ∃ x : Fin 32, a1[x] = (bhub.set 9 0x49)[j]) ∧
    (∀ x : Fin 32, a1[x] ≠ (bhub.set 9 0x49)[9]) :=
  ⟨by decide, by decide +kernel, by decide +kernel, by decide +kernel⟩

/-- ParseInvertsGenerate and GeneratedCodesAreInjective: A1, a table within capacity, and sums on both sides of 16383. -/
theorem witness_parse_inverts : Safety.AlphaInjective a1 ∧ Safety.CapacityRespected t1 ∧
    sigSum t1 0 0xFFFFFFFF ≤ 16383 ∧ ¬ sigSum t2 0 0xFFFFFFFF ≤ 16383 ∧
    genCode t1 a1 0x000186A1 0 = genCode t1 a1 0x000186A1 0 :=
  ⟨a1_injective, t1_capacity, by decide +kernel, by decide +kernel, rfl⟩

/-- SignatureSymbolChangesAreDetected and EqualRowsHideFreshnessChange: a code that parses, another symbol at 0 and at 1,
the symbol at 2, and the equal rows 0 and 8 of T1. -/
theorem witness_symbol_changes : parseCode t1 a1 10 bhub = .ok (0x000186A1, 0) ∧
    a1[positionOf 0] ≠ bhub[0] ∧ a1[positionOf 0] ≠ bhub[1] ∧ bhub[2] = a1[positionOf 18] ∧
    t1[rowOf 0] = t1[rowOf (0 ^^^ 8)] := by decide +kernel

/-- FreshRangeIsNeverReported: an instruction that keeps ERR, on a state whose ERR is FRESH_RANGE. -/
theorem witness_fresh_range : ∃ t, exec (.rd 0x004) (stateOf { ready.block with err := 4 }) = .next t ∧ t.block.err = 4 :=
  ⟨_, rfl, rfl⟩

/-- StickyClearedOnlyByWriteOrReset: each of the two ways (the first is the STATUS write of
UnmappedAndReadOnlyIgnoreWrites). -/
theorem witness_sticky :
    (∃ t, step { stateOf (raise .batchEmpty 0 ready.block) with port := [.access (.write 0x004 4 0x00000008)] } = .next t ∧
      t.block.errSticky = false) ∧
    (∃ t, step { stateOf (raise .batchEmpty 0 ready.block) with port := [.reset] } = .next t ∧
      t.block.errSticky = false) :=
  ⟨⟨_, rfl, by decide +kernel⟩, ⟨_, rfl, by decide +kernel⟩⟩

/-- DrawsAreTakenOnlyByUnforcedCommands: a step that draws, each of the two ways, and one that does not. -/
theorem witness_draws : (∃ t, step (ready.withFetchWord 32 0x00000003) = .next t ∧ t.draws = 1) ∧
    (∃ t, step ((readyBatch 7 3).withFetchWord 32 0x00000006) = .next t ∧ t.draws = 1) ∧
    (∃ t, step (ready.withFetchWord 32 0x00000006) = .next t ∧ t.draws = 0) :=
  ⟨⟨_, rfl, by decide +kernel⟩, ⟨_, rfl, by decide +kernel⟩, ⟨_, rfl, by decide +kernel⟩⟩

/-- BootSequenceReachesReady: A1 and T1, under either policy. -/
theorem witness_boot : State.reset.block = Block.reset ∧ Safety.AlphaInjective a1 ∧
    (State.reset.policy = .reject → Safety.CapacityRespected t1) := ⟨rfl, a1_injective, fun _ => t1_capacity⟩

/-- DecodeOfEncode and EncodeOfDecode: well-formed instructions of each kind of operand, and both answers of the decoder;
TableWindowsAreBijective: the edges of the windows. -/
theorem witness_encoding : wellFormed (.illegalOther 0x00001003) = true ∧ wellFormed (.rd 0x3FC) = true ∧
    wellFormed (.busError (.read 0x400 4)) = true ∧ decode (.access (.read 0x3FC 4)) = .ok (.rd 0x3FC) ∧
    decode (.access (.write 0x03C 4 1)) = .error (.ignoredWrite 0x03C 1) ∧
    inKeyWindow 0x100 ∧ inKeyWindow 0x2FC ∧ inAlphaWindow 0x300 ∧ inAlphaWindow 0x37C := by decide

end Sys2Proof.Tests
end

section
/-! The table lock: from a READY state no instruction but CFG_CLEAR unlocks the block or touches a table (10_state.md
R46). -/

namespace Sys2Proof.TableLock
open Sys2Proof.Machine Sys2Proof.Safety

/-- `b` is READY and has the tables, valid bits and range flags of `a`. -/
abbrev KeepsLock (a b : Block) : Prop := b.cfgState = .ready ∧ SameTables b a

/-! ### The access that carries CFG_CLEAR -/

/-- CFG_CLEAR has one command word: its reserved bits, F and FRESH are zero (R82, R83). -/
theorem eq_one_of_decodeCmd_cfgClear {w : Word} (h : decodeCmd w = .cfgClear) : w = 0x00000001 := by
  unfold decodeCmd at h
  split_ifs at h with hlegal _ hop
  simp only [legal, hop, Bool.and_eq_true] at hlegal
  obtain ⟨hreserved, hfields⟩ := hlegal
  obtain ⟨hforce, hfresh⟩ : w.toNat / 16 % 2 ≠ 1 ∧ freshField w = 0 := by simpa [forceField_eq] using hfields
  have hopNat : w.toNat % 16 = 1 := by rw [← toNat_opField, hop]; rfl
  have hfreshNat : w.toNat / 256 % 16 = 0 := by rw [← toNat_freshField, hfresh]; rfl
  have hword := toNat_of_reservedClear hreserved
  exact BitVec.eq_of_toNat_eq (show w.toNat = 1 by omega)

/-- An access that decodes to a command is the write of its word to CMD (R62, R122). -/
theorem access_of_decode_command {a : BusAccess} {i : Instr} {c : Cmd} (hd : decode (.access a) = .ok i)
    (hc : commandOf i = some c) : ∃ w, a = .write 0x000 4 w ∧ decodeCmd w = c := by
  rcases decodeAccess_ok_cases hd with ⟨_, _, _, rfl⟩ | ⟨_, rfl⟩ | ⟨off, v, rfl, _, hw⟩
  · cases hc
  · cases hc
  · rcases decodeWrite_ok_cases hw with ⟨rfl, rfl⟩ | ⟨_, rfl⟩ | ⟨_, rfl⟩ | ⟨_, rfl⟩ | ⟨_, rfl⟩ | ⟨_, rfl⟩ |
      ⟨_, rfl⟩ | ⟨_, rfl⟩ | ⟨_, rfl⟩ | ⟨_, rfl⟩ <;> cases hc
    exact ⟨v, rfl, rfl⟩

/-! ### What keeps the lock -/

/-- A READY block whose table fields are left alone keeps the lock. -/
theorem keepsLock_of_ready {b : Block} (hb : b.cfgState = .ready) : KeepsLock b b :=
  ⟨hb, rfl, rfl, rfl, rfl, rfl, rfl⟩

/-- While READY every command body but that of CFG_CLEAR keeps the lock. -/
theorem commandBody_keepsLock {c : Cmd} (hc : c ≠ .cfgClear) {s : State} (hs : s.block.cfgState = .ready) :
    KeepsLock s.block (commandBody c s).block := by
  rcases commandBody_cases c s with ⟨_, _, _, h⟩ | ⟨_, h⟩ | ⟨h, _⟩ | ⟨_, h, _⟩ | ⟨_, _, _, h⟩ |
    ⟨_, _, _, _, _, h⟩ | ⟨_, _, _, h⟩ | ⟨_, _, _, _, h⟩
  case inr.inr.inl => exact absurd h hc
  case inr.inr.inr.inl => simp [hs] at h
  all_goals simp [h, KeepsLock, SameTables, hs]

/-- A table write while READY keeps the lock: it is refused (R127, R129). -/
theorem unlessLocked_keepsLock (action : Block → Block) {b : Block} (hb : b.cfgState = .ready) :
    KeepsLock b (unlessLocked action b) := by
  simp [unlessLocked_ready action hb, KeepsLock, SameTables, hb]

/-- While READY every instruction that does not run CFG_CLEAR keeps the lock. -/
theorem exec_keepsLock {i : Instr} {s t : State} (hs : s.block.cfgState = .ready)
    (hi : commandOf i ≠ some .cfgClear) (h : exec i s = .next t) : KeepsLock s.block t.block := by
  cases hc : commandOf i with
  | some c =>
    rw [exec_command hc] at h
    cases h
    have hne : c ≠ .cfgClear := fun he => hi (he ▸ hc)
    exact commandBody_keepsLock hne (s := onBlock prologue s) hs
  | none =>
    cases i <;> simp only [commandOf, reduceCtorEq] at hc
    case wrKey => cases h; exact unlessLocked_keepsLock _ hs
    case wrAlpha => cases h; exact unlessLocked_keepsLock _ hs
    case wrStatus v => rw [exec_wrStatus] at h; cases h; simp [KeepsLock, SameTables, hs]
    all_goals cases h; exact keepsLock_of_ready hs

/-- Settles O29: an access keeps the lock unless it carries CFG_CLEAR, and then it is the excluded write to CMD. -/
theorem lockKeepsTables : Obligations.LockKeepsTables := by
  intro s t hs hstep hreset hclear
  rcases step_cases hstep with ⟨_, rfl⟩ | ⟨a, rest, i, hport, hd, hexec⟩ | ⟨_, _, _, _, _, rfl⟩ | ⟨_, hport, _⟩
  · exact keepsLock_of_ready hs
  · refine exec_keepsLock hs (fun hc => hclear ?_) hexec
    obtain ⟨w, rfl, hw⟩ := access_of_decode_command hd hc
    rw [hport, eq_one_of_decodeCmd_cfgClear hw, List.head?_cons]
  · exact keepsLock_of_ready hs
  · exact absurd (by rw [hport, List.head?_cons]) hreset

end Sys2Proof.TableLock
end

section
/-! The register window as memory: which accesses are admitted, which writes are ignored, and the byte lanes of the code
words (20_memory.md R61, R65, R73, R74; 60_exceptions.md R260). -/

namespace Sys2Proof.Memory
open Sys2Proof.Machine Sys2Proof.Safety

/-! ### The step on an access -/

/-- An access that a row names runs its instruction (R62, R68). -/
theorem step_of_decode_ok {s : State} {a : BusAccess} {rest : List PortEvent} {i : Instr}
    (hport : s.port = .access a :: rest) (hd : decode (.access a) = .ok i) : step s = exec i s := by
  simp only [step, fetch, hport, fetchAccess, hd]

/-- An access that no row names completes, and the block stands (R73, R74). -/
theorem step_of_decode_error {s : State} {a : BusAccess} {rest : List PortEvent} {u : Unlisted}
    (hport : s.port = .access a :: rest) (hd : decode (.access a) = .error u) : step s = .next (finish .done s) := by
  simp only [step, fetch, hport, fetchAccess, hd, ignoreWrite]

/-- The end of an access draws nothing and leaves the parameter (R66). -/
theorem ended_finish (r : Response) (s : State) : Ended r s (finish r s) := ⟨rfl, rfl, rfl, rfl⟩

/-- A write that is no command ends its access as done. -/
theorem ended_runWrite (action : Block → Block) (s : State) : Ended .done s (runWrite action s) :=
  ⟨rfl, rfl, rfl, rfl⟩

/-! ### Admission -/

/-- The admitted accesses: 4 bytes wide, aligned, at most at 0x3FC (R61). -/
theorem isAdmitted_iff (a : BusAccess) : a.isAdmitted = true ↔
    ∃ off, off % 4 = 0 ∧ off ≤ 0x3FC ∧ (a = .read off 4 ∨ ∃ v, a = .write off 4 v) := by
  cases a with
  | read off n =>
    rw [BusAccess.isAdmitted, admitted_iff]
    constructor
    · rintro ⟨rfl, aligned, le⟩
      exact ⟨off, aligned, le, .inl rfl⟩
    · rintro ⟨_, aligned, le, h | ⟨_, h⟩⟩ <;> cases h
      exact ⟨rfl, aligned, le⟩
  | write off n v =>
    rw [BusAccess.isAdmitted, admitted_iff]
    constructor
    · rintro ⟨rfl, aligned, le⟩
      exact ⟨off, aligned, le, .inr ⟨v, rfl⟩⟩
    · rintro ⟨_, aligned, le, h | ⟨_, h⟩⟩ <;> cases h
      exact ⟨rfl, aligned, le⟩

/-- An access that is not admitted decodes to BUS_ERROR (R61). -/
theorem decode_of_not_admitted {a : BusAccess} (h : a.isAdmitted = false) :
    decode (.access a) = .ok (.busError a) := by
  cases a with
  | read off n =>
    have hadm : admitted off n = false := h
    simp [decode, decodeAccess, hadm]
  | write off n v =>
    have hadm : admitted off n = false := h
    simp [decode, decodeAccess, hadm]

/-- Settles O8: such an access decodes to BUS_ERROR, which only ends it on the bus. -/
theorem unadmittedAccessOnlyAnswersBusError : Obligations.UnadmittedAccessOnlyAnswersBusError := by
  intro a s
  refine ⟨isAdmitted_iff a, fun hadm => ⟨_, exec_busError a s, rfl, ended_finish _ s, fun rest hport => ?_⟩⟩
  constructor
  · rw [step_of_decode_ok hport (decode_of_not_admitted hadm), exec_busError]
  · rw [finish_port, hport, List.tail_cons]

/-! ### Ignored writes -/

/-- An aligned 4-byte write inside the window is decoded by its offset (R80). -/
theorem decode_admitted_write {off : Nat} (v : Word) (h : admitted off 4 = true) :
    decode (.access (.write off 4 v)) = decodeWrite off v := by
  simp [decode, decodeAccess, h]

/-- No row writes a read-only register or an unmapped offset (R73, R74): every row's offset is outside their ranges. -/
theorem decodeWrite_ignored {off : Nat} (v : Word) (h : isReadOnly off ∨ isUnmapped off) :
    ∃ u, decodeWrite off v = .error u := by
  cases hd : decodeWrite off v with
  | error u => exact ⟨u, rfl⟩
  | ok i =>
    rcases decodeWrite_ok_cases hd with ⟨ho, _⟩ | ⟨ho, _⟩ | ⟨ho, _⟩ | ⟨ho, _⟩ | ⟨ho, _⟩ | ⟨ho, _⟩ | ⟨ho, _⟩ |
      ⟨ho, _⟩ | ⟨ho, _⟩ | ⟨ho, _⟩ <;> omega

/-- Settles O9: no row names the ignored writes, the STATUS write is `clearSticky`, and an unmapped read is 0. -/
theorem unmappedAndReadOnlyIgnoreWrites : Obligations.UnmappedAndReadOnlyIgnoreWrites := by
  refine ⟨fun s off v rest hport aligned hoff => ?_, fun s v rest hport => ?_, fun s off _ hoff => ?_⟩
  · have hadm : admitted off 4 = true := (admitted_iff off 4).mpr ⟨rfl, aligned, by omega⟩
    obtain ⟨u, hu⟩ := decodeWrite_ignored v hoff
    exact ⟨_, step_of_decode_error hport ((decode_admitted_write v hadm).trans hu), rfl, ended_finish _ s⟩
  · have hd : decode (.access (.write 0x004 4 v)) = .ok (.wrStatus v) := rfl
    exact ⟨_, (step_of_decode_ok hport hd).trans (exec_wrStatus v s), ended_runWrite _ s, rfl⟩
  · refine ⟨_, exec_rd off s, rfl, ?_⟩
    rw [readReg_unmapped _ _ hoff]
    exact ended_finish _ s

/-! ### The code words -/

/-- The word of a code that holds symbol `k`, and the lane of that word (R65). -/
theorem lane_codeWord (code : Symbols) (k : Fin 10) :
    lane (codeWord code ⟨k.val / 4, by omega⟩) ⟨k.val % 4, by omega⟩ = code[k] := by
  fin_cases k <;> simp [codeWord]

/-- A code as the list of its symbols. -/
theorem toList_symbols (code : Symbols) : code.toList =
    [code[0], code[1], code[2], code[3], code[4], code[5], code[6], code[7], code[8], code[9]] := by
  refine List.ext_getElem (by simp) fun k hk _ => ?_
  rw [Vector.length_toList] at hk
  interval_cases k <;> simp

/-- The byte lanes of the three words of a code, in order: its symbols, and zero in the two lanes left (R65, R91). -/
theorem lanes_codeWords (code : Symbols) :
    ([0, 1, 2] : List (Fin 3)).flatMap (fun n => ([0, 1, 2, 3] : List (Fin 4)).map (lane (codeWord code n))) =
      code.toList ++ [0, 0] := by
  simp [codeWord, toList_symbols]

/-- CODE_IN0 to CODE_IN2 read as the words of CODE_IN (R230). -/
theorem reads_codeIn (s : State) (n : Fin 3) : reads s (0x014 + 4 * n.val) = codeWord s.block.codeIn n := by
  fin_cases n <;> rfl

/-- CODE_OUT0 to CODE_OUT2 read as the words of CODE_OUT (R230). -/
theorem reads_codeOut (s : State) (n : Fin 3) : reads s (0x028 + 4 * n.val) = codeWord s.block.codeOut n := by
  fin_cases n <;> rfl

/-- Settles O14: both codes are read word by word, and a word of a code has its symbols in its lanes. -/
theorem codeWordsHoldSymbolsInLanes : Obligations.CodeWordsHoldSymbolsInLanes := by
  intro s
  refine ⟨fun k => ⟨?_, ?_⟩, ?_, ?_⟩
  · rw [reads_codeIn s ⟨k.val / 4, by omega⟩]
    exact lane_codeWord s.block.codeIn k
  · rw [reads_codeOut s ⟨k.val / 4, by omega⟩]
    exact lane_codeWord s.block.codeOut k
  · exact lanes_codeWords s.block.codeIn
  · exact lanes_codeWords s.block.codeOut

end Sys2Proof.Memory
end

section
/-! The legal command words: a word with its reserved bits clear is made of its fields, so the formula leaves 39 words
(30_encoding.md R81, R83). -/

namespace Sys2Proof.LegalWords
open Sys2Proof.Machine Sys2Proof.Safety

/-! ### A word from its fields -/

/-- The command word with the given fields and its reserved bits clear (R81). -/
def commandWord (op : BitVec 4) (force : Bool) (fresh : Nibble) : Word :=
  op.setWidth 32 + (if force then 0x10 else 0) + 0x100 * fresh.setWidth 32

/-- A word with its reserved bits clear is the word of its own fields (R81). -/
theorem commandWord_fields {w : Word} (h : reservedClear w = true) :
    commandWord (opField w) (forceField w) (freshField w) = w := by
  have hword := toNat_of_reservedClear h
  apply BitVec.eq_of_toNat_eq
  cases hforce : forceField w <;> simp only [forceField_eq, decide_eq_true_eq, decide_eq_false_iff_not] at hforce <;>
    simp [commandWord, toNat_opField, toNat_freshField] <;> omega

theorem reservedClear_iff (w : Word) :
    reservedClear w = true ↔ w.extractLsb' 12 20 = 0 ∧ w.extractLsb' 5 3 = 0 := by
  simp only [reservedClear, Bool.and_eq_true, beq_iff_eq]

/-! ### The formula -/

/-- `legal(w)`, field by field (R83). -/
theorem legal_iff_fields (w : Word) : legal w = true ↔
    reservedClear w = true ∧
      ((opField w ∈ ([0x0, 0x1, 0x2, 0x4, 0x5] : List (BitVec 4)) ∧ forceField w = false ∧ freshField w = 0) ∨
        (opField w ∈ ([0x3, 0x6] : List (BitVec 4)) ∧ (forceField w = true ∨ freshField w = 0))) := by
  simp only [legal, Bool.and_eq_true, Bool.or_eq_true, List.contains_iff_mem, Bool.not_eq_true', beq_iff_eq, and_assoc]

/-- A legal word is an OP of 0 to 6 and nothing else, or GENERATE or BATCH_NEXT with a forced freshness. -/
theorem commandWord_of_legal {w : Word} (h : legal w = true) :
    (∃ op ∈ ([0x0, 0x1, 0x2, 0x4, 0x5, 0x3, 0x6] : List (BitVec 4)), w = commandWord op false 0) ∨
      ∃ op ∈ ([0x3, 0x6] : List (BitVec 4)), ∃ f, w = commandWord op true f := by
  obtain ⟨hreserved, hfields⟩ := (legal_iff_fields w).mp h
  have hw := commandWord_fields hreserved
  rcases hfields with ⟨hop, hforce, hfresh⟩ | ⟨hop, hsel⟩
  · rw [hforce, hfresh] at hw
    exact .inl ⟨_, List.mem_append_left [0x3, 0x6] hop, hw.symm⟩
  · cases hforce : forceField w with
    | true =>
      rw [hforce] at hw
      exact .inr ⟨_, hop, _, hw.symm⟩
    | false =>
      have hfresh : freshField w = 0 := hsel.resolve_left (by simp [hforce])
      rw [hforce, hfresh] at hw
      exact .inl ⟨_, List.mem_append_right [0x0, 0x1, 0x2, 0x4, 0x5] hop, hw.symm⟩

/-! ### The list -/

/-- The 7 legal words without F (R83). -/
def unforcedWords : List Word :=
  [0x00000000, 0x00000001, 0x00000002, 0x00000004, 0x00000005, 0x00000003, 0x00000006]

/-- The word of a forced command: `base` holds OP and F, and `f` stands in FRESH (R81). -/
abbrev forcedWord (base : Word) (f : Nibble) : Word := base + 0x100 * f.setWidth 32

/-- The 16 freshness values. -/
def nibbles : List Nibble := (List.finRange 16).map BitVec.ofFin

/-- The 7 + 32 legal words of R83. -/
def listedWords : List Word :=
  unforcedWords ++ (nibbles.map (forcedWord 0x00000013) ++ nibbles.map (forcedWord 0x00000016))

theorem mem_nibbles (f : Nibble) : f ∈ nibbles :=
  List.mem_map.mpr ⟨f.toFin, List.mem_finRange _, rfl⟩

theorem mem_listedWords (w : Word) : w ∈ listedWords ↔
    w ∈ unforcedWords ∨ ∃ f, w = forcedWord 0x00000013 f ∨ w = forcedWord 0x00000016 f := by
  simp only [listedWords, List.mem_append, List.mem_map, mem_nibbles, true_and, exists_or, eq_comm (b := w)]

theorem nodup_listedWords : listedWords.Nodup := by decide

theorem all_unforcedWords_legal : unforcedWords.all legal = true := by decide

theorem legal_forcedGenerate : ∀ f, legal (forcedWord 0x00000013 f) = true := by decide

theorem legal_forcedBatchNext : ∀ f, legal (forcedWord 0x00000016 f) = true := by decide

/-- A word is legal exactly when it is one of those listed (R83). -/
theorem legal_iff_mem_listedWords (w : Word) : legal w = true ↔ w ∈ listedWords := by
  rw [mem_listedWords]
  constructor
  · intro h
    rcases commandWord_of_legal h with ⟨op, hop, rfl⟩ | ⟨op, hop, f, rfl⟩
    · exact .inl (List.mem_map_of_mem (f := (commandWord · false 0)) hop)
    · rw [List.mem_pair] at hop
      rcases hop with rfl | rfl
      · exact .inr ⟨f, .inl rfl⟩
      · exact .inr ⟨f, .inr rfl⟩
  · rintro (h | ⟨f, rfl | rfl⟩)
    · exact List.all_eq_true.mp all_unforcedWords_legal w h
    · exact legal_forcedGenerate f
    · exact legal_forcedBatchNext f

/-! ### Every other word -/

/-- A legal word decodes to a command of its own, never to ILLEGAL (R82, R84). -/
theorem decodeCmd_ne_illegal {w : Word} (h : legal w = true) : decodeCmd w ≠ .illegal := by
  unfold decodeCmd
  split_ifs <;> nofun

theorem not_legal_iff_decodeCmd (w : Word) : legal w = false ↔ decodeCmd w = .illegal := by
  refine ⟨decodeCmd_of_not_legal, fun hd => ?_⟩
  cases hl : legal w with
  | false => rfl
  | true => exact absurd hd (decodeCmd_ne_illegal hl)

/-- The write of an illegal word to CMD ends with ILLEGAL_COMMAND (R126, R257). -/
theorem exec_wrCmd_of_not_legal {w : Word} (h : legal w = false) (s : State) :
    ∃ t, exec (.wrCmd w) s = .next t ∧ t.block.err = ErrCode.illegalCommand.code := by
  have hc : commandOf (.wrCmd w) = some .illegal := congrArg some (decodeCmd_of_not_legal h)
  obtain ⟨t, hexec, _, _, ⟨herr, _⟩, _⟩ := exec_of_report (e := .illegalCommand) (x := 0) hc (s := s) rfl
  exact ⟨t, hexec, herr⟩

/-- Settles O2: the fields of a word make it up, which leaves the 7 + 32 listed words; the rest decode to ILLEGAL. -/
theorem legalWordsAreThoseListed : Obligations.LegalWordsAreThoseListed := by
  refine ⟨fun w => ?_, fun w => (legal_iff_mem_listedWords w).trans (mem_listedWords w),
    ⟨listedWords, nodup_listedWords, rfl, legal_iff_mem_listedWords⟩, not_legal_iff_decodeCmd,
    fun w s h => exec_wrCmd_of_not_legal h s⟩
  rw [legal_iff_fields, reservedClear_iff, and_assoc]
  rfl

end Sys2Proof.LegalWords
end

section
/-! The checks of CFG_COMMIT: each bit of the CAUSE byte is its condition, and the capacity check is exact
(40_configuration.md R132 to R134). -/

namespace Sys2Proof.ConfigChecks
open Sys2Proof.Machine Sys2Proof.Safety

/-! ### The conditions -/

theorem keyMissing_iff (b : Block) : keyMissing b = true ↔ ∃ (r : Fin 16) (c : Fin 8), (b.keyValid[r])[c] = false := by
  simp only [keyMissing, List.any_eq_true, mem_rows, mem_columns, true_and, Bool.not_eq_true']

theorem alphaMissing_iff (b : Block) : alphaMissing b = true ↔ ∃ j : Fin 32, b.alphaValid[j] = false := by
  simp only [alphaMissing, List.any_eq_true, List.mem_finRange, true_and, Bool.not_eq_true']

theorem alphaDup_iff (b : Block) : alphaDup b = true ↔ ∃ j k : Fin 32, j < k ∧ b.alpha[j] = b.alpha[k] := by
  simp only [alphaDup, List.any_eq_true, List.mem_finRange, true_and, Bool.and_eq_true, decide_eq_true_eq, beq_iff_eq]

theorem sigCapacityExceeded_iff (key : KeyTable) :
    sigCapacityExceeded key = true ↔ ∃ r : Fin 16, 16383 < 15 * rowSum key[r] := by
  simp only [sigCapacityExceeded, List.any_eq_true, mem_rows, true_and, decide_eq_true_eq, gt_iff_lt, Config.sigCapacity]

theorem capacityCause_iff (p : SigOvfPolicy) (b : Block) :
    capacityCause p b = true ↔ p = .reject ∧ ∃ r : Fin 16, 16383 < 15 * rowSum b.key[r] := by
  rw [capacityCause, Bool.and_eq_true, decide_eq_true_eq, sigCapacityExceeded_iff]

/-- CAUSE has no bit above ALPHA_RANGE (R87). -/
theorem configCheck_high (p : SigOvfPolicy) (b : Block) : (configCheck p b).extractLsb' 6 2 = 0 := by
  apply BitVec.eq_of_getLsbD_eq
  intro i hi
  rw [BitVec.getLsbD_extractLsb', configCheck_getLsbD]
  interval_cases i <;> rfl

/-- Settles O25: each bit of the CAUSE byte is one check, and each check is its condition. -/
theorem configCheckReportsEachCause : Obligations.ConfigCheckReportsEachCause := by
  intro p b
  have bit := configCheck_getLsbD p b
  refine ⟨?_, ?_, ?_, ?_, bit 4, bit 5, configCheck_high p b⟩
  · rw [bit 0]; exact keyMissing_iff b
  · rw [bit 1]; exact alphaMissing_iff b
  · rw [bit 2]; exact alphaDup_iff b
  · rw [bit 3]; exact capacityCause_iff p b

/-! ### The largest signature of a row -/

/-- No nibble exceeds 15, so no identifier's sum exceeds 15 times the entries' sum (R134). -/
theorem rowSigSum_le (row : KeyRow) (id : Word) : rowSigSum row id ≤ 15 * rowSum row := by
  rw [rowSigSum, rowSum, ← List.sum_map_mul_left]
  refine List.sum_le_sum fun c _ => Nat.mul_le_mul_right _ ?_
  have := (nib id c).isLt
  omega

theorem nib_maxIdentifier (c : Fin 8) : nib 0xFFFFFFFF c = 15 := by revert c; decide

/-- The largest identifier has every nibble 15, so it reaches the bound (R134). -/
theorem rowSigSum_maxIdentifier (row : KeyRow) : rowSigSum row 0xFFFFFFFF = 15 * rowSum row := by
  rw [rowSigSum, rowSum, ← List.sum_map_mul_left]
  simp only [nib_maxIdentifier]
  rfl

/-- Every row is the row of some freshness value (R95), whose largest sum is at 0xFFFFFFFF. -/
theorem sigSum_maxIdentifier (key : KeyTable) (r : Fin 16) :
    sigSum key (BitVec.ofFin r) 0xFFFFFFFF = 15 * rowSum key[r] := rowSigSum_maxIdentifier key[r]

/-- The check fails exactly when some signature does not fit in 14 bits: a failing row fails at 0xFFFFFFFF (R134). -/
theorem sigCapacityExceeded_iff_sigSum (key : KeyTable) :
    sigCapacityExceeded key = true ↔ ∃ (f : Nibble) (id : Word), 16383 < sigSum key f id := by
  rw [sigCapacityExceeded_iff]
  constructor
  · rintro ⟨r, hr⟩
    refine ⟨BitVec.ofFin r, 0xFFFFFFFF, ?_⟩
    rwa [sigSum_maxIdentifier]
  · rintro ⟨f, id, hsum⟩
    exact ⟨rowOf f, hsum.trans_le (rowSigSum_le _ id)⟩

theorem entry_le_rowSum (row : KeyRow) (c : Fin 8) : row[c].toNat ≤ rowSum row :=
  List.le_sum_of_mem (List.mem_map_of_mem (mem_columns c))

theorem capacityCause_truncate (b : Block) : capacityCause .truncate b = false := rfl

/-- Settles O26: the largest sum of a row is at 0xFFFFFFFF, so the check on it decides all identifiers. -/
theorem capacityCheckIsExact : Obligations.CapacityCheckIsExact := by
  intro key
  have largest : ∀ f : Nibble, sigSum key f 0xFFFFFFFF = 15 * rowSum key[rowOf f] :=
    fun f => rowSigSum_maxIdentifier key[rowOf f]
  refine ⟨sigCapacityExceeded_iff_sigSum key, fun f id => ?_, largest, fun r => by omega, fun r c hr => ?_, fun b => ?_⟩
  · rw [largest]
    exact rowSigSum_le _ id
  · exact (entry_le_rowSum key[r] c).trans hr
  · rw [configCheck_getLsbD]
    exact capacityCause_truncate b

end Sys2Proof.ConfigChecks
end

section
/-! The commands without a condition: NOP, the illegal words and CFG_CLEAR, and what each leaves of STATUS
(40_configuration.md R120, R121, R125, R126, R130). -/

namespace Sys2Proof.ConfigCommands
open Sys2Proof.Machine Sys2Proof.Safety Sys2Proof.Memory

/-! ### The STATUS word after each update -/

/-- A read of STATUS is the STATUS word (R85, R230). -/
theorem reads_status (s : State) : reads s 0x004 = statusWord s.block := rfl

/-- The prologue clears CAUSE, ERR and OUT_VALID (R120). -/
theorem statusWord_prologue (b : Block) : statusWord (prologue b) = statusWord b &&& 0x0000000D := by
  apply statusWord_eq
  intro i hi
  rw [BitVec.getLsbD_and, statusWord_getLsbD, statusWord_getLsbD]
  interval_cases i <;> simp [readyFlag, batchActive]

/-- A report replaces CAUSE and ERR and sets ERR_STICKY (R121). -/
theorem statusWord_raise (e : ErrCode) (c : Byte) (b : Block) :
    statusWord (raise e c b) = statusWord b &&& 0x00000007 ||| (c ++ e.code ++ 0x8#4).setWidth 32 := by
  apply statusWord_eq
  intro i hi
  rw [BitVec.getLsbD_or, BitVec.getLsbD_and, statusWord_getLsbD, statusWord_getLsbD, BitVec.getLsbD_setWidth,
    BitVec.getLsbD_append, BitVec.getLsbD_append]
  interval_cases i <;> simp [readyFlag, batchActive]

/-- CFG_CLEAR clears READY and BATCH_ACTIVE (R130). -/
theorem statusWord_clearConfiguration (b : Block) :
    statusWord (clearConfiguration b) = statusWord b &&& 0xFFFFFFFA := by
  apply statusWord_eq
  intro i hi
  rw [BitVec.getLsbD_and, statusWord_getLsbD, statusWord_getLsbD]
  interval_cases i <;> simp [readyFlag, batchActive]

/-! ### NOP -/

/-- NOP is the prologue alone (R125). -/
theorem exec_nop (s : State) : exec .nop s = .next (runWrite prologue s) := rfl

/-- Settles O22: NOP is the prologue, which takes no bit of STATUS but CAUSE, ERR and OUT_VALID. -/
theorem nopOnlyClearsResults : Obligations.NopOnlyClearsResults := by
  refine ⟨rfl, fun s => ⟨_, exec_nop s, ended_runWrite _ s, ?_⟩⟩
  rw [reads_status, reads_status, runWrite_block]
  exact ⟨prologue_noResults _, ⟨rfl, rfl⟩, rfl, rfl, ⟨rfl, rfl, rfl, rfl, rfl, rfl⟩, ⟨rfl, rfl, rfl, rfl⟩, ⟨rfl, rfl⟩,
    statusWord_prologue _⟩

/-! ### Illegal words -/

/-- The prologue, then `raise ILLEGAL_COMMAND(0)` (R126). -/
def reportIllegal (b : Block) : Block := raise .illegalCommand 0 (prologue b)

/-- Whatever runs the command ILLEGAL makes the report and nothing more (R126, R257). -/
theorem exec_illegal {i : Instr} (h : commandOf i = some .illegal) (s : State) :
    exec i s = .next (runWrite reportIllegal s) := exec_command h s

theorem commandOf_of_isIllegalRow {i : Instr} (h : isIllegalRow i = true) : commandOf i = some .illegal := by
  cases i <;> simp only [isIllegalRow, Bool.false_eq_true] at h <;> rfl

theorem commandOf_wrCmd_of_not_legal {w : Word} (h : legal w = false) : commandOf (.wrCmd w) = some .illegal :=
  congrArg some (decodeCmd_of_not_legal h)

/-- STATUS keeps READY and BATCH_ACTIVE and shows ERR = 7 with ERR_STICKY (R85, R126). -/
theorem statusWord_reportIllegal (b : Block) :
    statusWord (reportIllegal b) = statusWord b &&& 0x00000005 ||| 0x00000078 := by
  rw [reportIllegal, statusWord_raise, statusWord_prologue, BitVec.and_assoc]
  rfl

/-- Settles O23: each illegal row, and the write of each illegal word, runs the command ILLEGAL. -/
theorem illegalWordOnlyReports : Obligations.IllegalWordOnlyReports := by
  intro i s hi
  refine ⟨_, exec_illegal (commandOf_of_isIllegalRow hi) s, ended_runWrite _ s,
    onlyRaised_raise .illegalCommand 0 s.block, ?_, fun w hw => exec_illegal (commandOf_wrCmd_of_not_legal hw) s⟩
  exact statusWord_reportIllegal s.block

/-! ### CFG_CLEAR -/

/-- CFG_CLEAR is the prologue and the clearing, whatever the configuration state (R130). -/
theorem exec_cfgClear (s : State) :
    exec .cfgClear s = .next (runWrite (fun b => clearConfiguration (prologue b)) s) := rfl

/-- A cleared table has every entry and every valid bit zero (R130). -/
theorem clearConfiguration_key_get (b : Block) (r : Fin 16) (c : Fin 8) :
    ((clearConfiguration b).key[r])[c] = 0 ∧ ((clearConfiguration b).keyValid[r])[c] = false := by simp

theorem clearConfiguration_alpha_get (b : Block) (j : Fin 32) :
    (clearConfiguration b).alpha[j] = 0 ∧ (clearConfiguration b).alphaValid[j] = false := by simp

/-- Of STATUS the prologue and the clearing leave ERR_STICKY (R130). -/
theorem statusWord_clearConfiguration_prologue (b : Block) :
    statusWord (clearConfiguration (prologue b)) = statusWord b &&& 0x00000008 := by
  rw [statusWord_clearConfiguration, statusWord_prologue, BitVec.and_assoc]
  rfl

/-- Settles O24: the clearing zeroes what R130 names, and the prologue the results and the status. -/
theorem cfgClearZeroesConfiguration : Obligations.CfgClearZeroesConfiguration := by
  refine ⟨rfl, fun s => ⟨_, exec_cfgClear s, ended_runWrite _ s, ?_⟩⟩
  rw [reads_status, reads_status, runWrite_block]
  exact ⟨rfl, clearConfiguration_key_get _, clearConfiguration_alpha_get _, rfl, rfl, rfl, rfl,
    prologue_noResults s.block, ⟨rfl, rfl⟩, rfl, ⟨rfl, rfl, rfl, rfl⟩, statusWord_clearConfiguration_prologue _⟩

end Sys2Proof.ConfigCommands
end

section
/-! The generate datapath: the weighted sum, the permuter and the code of an identifier, against plain arithmetic
(41_generate.md R150 to R157, R160). -/

namespace Sys2Proof.GenerateDatapath
open Sys2Proof.Machine Sys2Proof.Safety Sys2Proof.ConfigChecks

/-! ### Columns as numbers -/

/-- A sum over the column numbers 0 to 7 is a sum over the columns. -/
theorem sum_range_eight_eq_columns (g : Nat → Nat) :
    ((List.range 8).map g).sum = (columns.map fun c => g c.val).sum := rfl

/-- A sum over the columns, written out. -/
theorem sum_columns (g : Fin 8 → Nat) :
    (columns.map g).sum = g 0 + g 1 + g 2 + g 3 + g 4 + g 5 + g 6 + g 7 := by
  simp only [columns, List.map, List.sum_cons, List.sum_nil, Nat.add_zero, Nat.add_assoc]

theorem row_toList_getD (row : KeyRow) (c : Fin 8) : row.toList.getD c.val 0 = row[c] := by
  simp

/-! ### The weighted sum -/

/-- The plain sum of R151 is SigSum. -/
theorem sumNat_toNat (key : KeyTable) (f : Nibble) (id : Word) : sumNat key f id.toNat = sigSum key f id := by
  simp only [sumNat, sum_range_eight_eq_columns, row_toList_getD, sigSum, rowSigSum, toNat_nib]

/-- Eight entries of 16 bits. -/
theorem rowSum_le (row : KeyRow) : rowSum row ≤ 8 * 65535 := by
  refine List.sum_le_card_nsmul _ _ fun n hn => ?_
  obtain ⟨c, _, rfl⟩ := List.mem_map.mp hn
  exact Nat.le_of_lt_succ row[c].isLt

/-- Settles O30: the two sums agree term by term, and no nibble exceeds 15, no entry 65535. -/
theorem sigSumIsExact : Obligations.SigSumIsExact := by
  intro key f id
  have bound : sigSum key f id ≤ 7864200 :=
    calc sigSum key f id ≤ 15 * rowSum key[rowOf f] := rowSigSum_le _ id
      _ ≤ 15 * (8 * 65535) := Nat.mul_le_mul_left 15 (rowSum_le _)
  exact ⟨(sumNat_toNat key f id).symm, bound, by omega⟩

/-! ### The permuter -/

theorem nib_xor (x y : Word) (i : Fin 8) : nib (x ^^^ y) i = nib x i ^^^ nib y i := by
  simp only [nib, BitVec.extractLsb'_xor]

theorem nib_obf (key : KeyTable) (f : Nibble) (x : Word) (i : Fin 8) :
    nib (obf key f x) i = nib x i ^^^ mask key f i := nib_ofNibbles _ i

/-- M(f), the masks of a row side by side (R154). -/
def rowMask (key : KeyTable) (f : Nibble) : Word := ofNibbles (mask key f)

/-- The permuter is the XOR with M(f) (R154). -/
theorem obf_eq_xor (key : KeyTable) (f : Nibble) (x : Word) : obf key f x = x ^^^ rowMask key f := by
  apply eq_of_nib_eq
  intro i
  rw [nib_obf, nib_xor, rowMask, nib_ofNibbles]

theorem obf_involutive (key : KeyTable) (f : Nibble) : Function.Involutive (obf key f) := by
  intro x
  rw [obf_eq_xor, obf_eq_xor, BitVec.xor_assoc, BitVec.xor_self, BitVec.xor_zero]

/-- Settles O32: XOR with one mask undoes itself, and acts on each nibble alone. -/
theorem permuterIsInvolution : Obligations.PermuterIsInvolution :=
  fun key f => ⟨obf_involutive key f, (obf_involutive key f).bijective, nib_obf key f⟩

theorem toNat_mask (key : KeyTable) (f : Nibble) (i : Fin 8) :
    (mask key f i).toNat = ((key[rowOf f])[i]).toNat % 16 := by
  rw [mask, toNat_field, pow_zero, Nat.div_one]; rfl

/-- A word as the sum of its nibbles at their places (R94). -/
theorem toNat_ofNibbles_eq_sum (n : Fin 8 → Nibble) :
    (ofNibbles n).toNat = (columns.map fun c => (n c).toNat * 16 ^ (7 - c.val)).sum := by
  rw [toNat_ofNibbles, sum_columns]
  simp only [Fin.coe_ofNat_eq_mod, Nat.reduceMod, Nat.reduceSub, Nat.reducePow, mul_one]

/-- M(f) as a number (R154). -/
theorem toNat_rowMask (key : KeyTable) (f : Nibble) : (rowMask key f).toNat = rowMaskNat key f := by
  simp only [rowMask, toNat_ofNibbles_eq_sum, rowMaskNat, sum_range_eight_eq_columns, row_toList_getD, toNat_mask]

theorem toNat_obf (key : KeyTable) (f : Nibble) (x : Word) :
    (obf key f x).toNat = x.toNat ^^^ rowMaskNat key f := by
  rw [obf_eq_xor, BitVec.toNat_xor, toNat_rowMask]

/-! ### The payload and its code -/

/-- The packed payload as a number (R155, R157). -/
theorem toNat_pack_eq_payloadNat (key : KeyTable) (f : Nibble) (id : Word) :
    (pack (sig14 key f id) f (obf key f id)).toNat = payloadNat key f id.toNat := by
  rw [toNat_pack, sig14, BitVec.toNat_ofNat, toNat_obf, ← sumNat_toNat, payloadNat]

/-- Encoded symbols carry their payload (R156). -/
theorem carriesPayload_encodeSymbols (alpha : Alphabet) (p : Payload) :
    CarriesPayload alpha (encodeSymbols alpha p) p.toNat := by
  intro k
  rw [encodeSymbols_get, ← toNat_symIdx]
  simp [positionOf]

/-- Settles O33: the payload that is encoded is the number `payloadNat`, and has 50 bits. -/
theorem generatedCodeCarriesPayload : Obligations.GeneratedCodeCarriesPayload := by
  intro key alpha id f
  rw [← toNat_pack_eq_payloadNat]
  exact ⟨carriesPayload_encodeSymbols alpha _, BitVec.isLt _⟩

end Sys2Proof.GenerateDatapath
end

section
/-! The command GENERATE while READY: what it leaves in the block, and that its results come from the identifier, the
freshness and the tables alone (41_generate.md R158, R161). -/

namespace Sys2Proof.GenerateCommand
open Sys2Proof.Machine Sys2Proof.Safety

/-- The prologue takes no draw, so the selection after it is the selection before it (R120, R159). -/
theorem freshSel_fst_onBlock (sel : FreshSel) (g : Block → Block) (s : State) :
    (freshSel sel (onBlock g s)).1 = (freshSel sel s).1 := by
  cases sel <;> rfl

/-- GENERATE while READY writes the code of ID_IN at the selected freshness over the prologue's block (R158). -/
theorem generate_block {i : Instr} {sel : FreshSel} {s t : State} (hi : commandOf i = some (.generate sel))
    (ready : s.block.cfgState = .ready) (ht : exec i s = .next t) :
    t.block = emitCode s.block.idIn (freshSel sel s).1 (prologue s.block) := by
  rw [exec_command hi] at ht
  cases ht
  have ready' : (onBlock prologue s).block.cfgState = .ready := ready
  rw [runCommand_block, generateBody_eq, if_pos ready', onBlock_block, freshSel_block, freshSel_fst_onBlock]
  rfl

/-- Both GENERATE rows run the command GENERATE (R158). -/
theorem commandOf_generate {i : Instr} (h : i = .gen ∨ ∃ f, i = .genF f) :
    ∃ sel, commandOf i = some (.generate sel) := by
  rcases h with rfl | ⟨f, rfl⟩
  · exact ⟨.random, rfl⟩
  · exact ⟨.forced f, rfl⟩

/-- Every symbol of a code is a member of the Alphabet (R156). -/
theorem genCode_get_mem (key : KeyTable) (alpha : Alphabet) (id : Word) (f : Nibble) (k : Fin 10) :
    ∃ j : Fin 32, (genCode key alpha id f)[k] = alpha[j] := ⟨_, encodeSymbols_get alpha _ k⟩

/-- Settles O37: the results are the identifier, the freshness and their code, which reads the tables only. -/
theorem forcedGenerateIsDeterminedByOperands : Obligations.ForcedGenerateIsDeterminedByOperands := by
  refine ⟨fun f s s' t t' ready ready' hid hkey halpha ht ht' => ?_, fun i s t hi ready ht k => ?_⟩
  · rw [generate_block (sel := .forced f) rfl ready ht, generate_block (sel := .forced f) rfl ready' ht']
    simp [SameResults, hid, hkey, halpha]
  · obtain ⟨sel, hsel⟩ := commandOf_generate hi
    rw [generate_block hsel ready ht]
    exact genCode_get_mem _ _ _ _ k

end Sys2Proof.GenerateCommand
end

section
/-! A batch from its start to its last code: each BATCH_NEXT emits the next identifier and advances the batch by one, the
other instructions leave it, and the code that is emitted parses back (42_batch.md R180 to R183). -/

namespace Sys2Proof.BatchRuns
open Sys2Proof.Machine Sys2Proof.Safety Sys2Proof.TableLock Sys2Proof.GenerateDatapath Sys2Proof.GenerateCommand

/-! ### The kinds of instructions, by the command they run -/

theorem runsBatchNext_iff {i : Instr} : runsBatchNext i = true ↔ ∃ sel, commandOf i = some (.batchNext sel) := by
  unfold runsBatchNext
  split
  next sel h => simp [h]
  next h => simpa using h

theorem keepsBatch_iff {i : Instr} :
    keepsBatch i = true ↔ commandOf i ≠ some .batchStart ∧ commandOf i ≠ some .cfgClear := by
  unfold keepsBatch
  split
  next h => simp [h]
  next h => simp [h]
  next hstart hclear => exact ⟨fun _ => ⟨hstart, hclear⟩, fun _ => rfl⟩

/-! ### The commands of a batch -/

/-- A BATCH_START that ends with ERR = OK had a range within 32 bits, and has loaded it (R180). -/
theorem batchStart_block {s t : State} (ready : s.block.cfgState = .ready) (ht : exec .batchStart s = .next t)
    (ok : t.block.err = 0) : ¬ batchOverflows s.block ∧ t.block = loadBatch (prologue s.block) := by
  rw [exec_command (c := .batchStart) rfl] at ht
  cases ht
  have ready' : (onBlock prologue s).block.cfgState = .ready := ready
  rw [runCommand_block, batchStartBody_eq, if_pos ready'] at ok ⊢
  by_cases overflow : batchOverflows (onBlock prologue s).block
  · rw [if_pos overflow] at ok
    exact absurd ok (by simp [ErrCode.code])
  · exact ⟨overflow, by rw [if_neg overflow]; rfl⟩

/-- BATCH_NEXT while READY with codes to come writes the code of BATCH_NEXT_ID at the selected freshness over the
prologue's block, and advances the batch (R181). -/
theorem batchNext_block {i : Instr} {sel : FreshSel} {s t : State} (hi : commandOf i = some (.batchNext sel))
    (ready : s.block.cfgState = .ready) (more : s.block.batchRemaining ≠ 0) (ht : exec i s = .next t) :
    t.block = advanceBatch (emitCode s.block.batchNextId (freshSel sel s).1 (prologue s.block)) := by
  rw [exec_command hi] at ht
  cases ht
  have ready' : (onBlock prologue s).block.cfgState = .ready := ready
  have more' : (onBlock prologue s).block.batchRemaining ≠ 0 := more
  rw [runCommand_block, batchNextBody_eq, if_pos ready', if_neg more', onBlock_block, freshSel_block,
    freshSel_fst_onBlock]
  rfl

/-- No other command body than those of CFG_CLEAR, BATCH_START and BATCH_NEXT touches the batch registers (R182). -/
theorem commandBody_sameBatch {c : Cmd} (hclear : c ≠ .cfgClear) (hstart : c ≠ .batchStart)
    (hnext : ∀ sel, c ≠ .batchNext sel) (s : State) : SameBatch (commandBody c s).block s.block := by
  rcases commandBody_cases c s with ⟨_, _, _, h⟩ | ⟨_, h⟩ | ⟨hc, _⟩ | ⟨_, _, _, h⟩ | ⟨_, _, _, h⟩ |
    ⟨_, _, _, _, _, h⟩ | ⟨hc, _⟩ | ⟨sel, hc, _⟩
  case inr.inr.inl => exact absurd hc hclear
  case inr.inr.inr.inr.inr.inr.inl => exact absurd hc hstart
  case inr.inr.inr.inr.inr.inr.inr => exact absurd hc (hnext sel)
  all_goals simp [h, SameBatch]

/-- While READY an instruction that runs none of the three leaves the batch registers (R182). -/
theorem exec_sameBatch {i : Instr} {s t : State} (ready : s.block.cfgState = .ready) (keeps : keepsBatch i = true)
    (notNext : runsBatchNext i = false) (ht : exec i s = .next t) : SameBatch t.block s.block := by
  obtain ⟨hstart, hclear⟩ := keepsBatch_iff.mp keeps
  have hnext : ∀ sel, commandOf i ≠ some (.batchNext sel) := fun sel h => by
    rw [runsBatchNext_iff.mpr ⟨sel, h⟩] at notNext; cases notNext
  cases hc : commandOf i with
  | some c =>
    rw [hc] at hstart hclear hnext
    rw [exec_command hc] at ht
    cases ht
    exact commandBody_sameBatch (fun h => hclear (congrArg some h)) (fun h => hstart (congrArg some h))
      (fun sel h => hnext sel (congrArg some h)) (onBlock prologue s)
  | none =>
    cases i <;> simp only [commandOf, reduceCtorEq] at hc
    case wrKey => cases ht; simp [unlessLocked_ready _ ready, SameBatch]
    case wrAlpha => cases ht; simp [unlessLocked_ready _ ready, SameBatch]
    case wrStatus v => rw [exec_wrStatus] at ht; cases ht; simp [SameBatch]
    all_goals cases ht; exact ⟨rfl, rfl⟩

/-! ### The batch under way -/

/-- `b` is READY with the tables of `b₀`, and `i` codes of the batch that `b₀` holds have been emitted since. -/
structure BatchAt (b₀ : Block) (i : Nat) (b : Block) : Prop where
  lock : KeepsLock b₀ b
  next : b.batchNextId = b₀.batchNextId + BitVec.ofNat 32 i
  remaining : b.batchRemaining.toNat + i = b₀.batchRemaining.toNat

theorem batchAt_zero {b : Block} (ready : b.cfgState = .ready) : BatchAt b 0 b :=
  ⟨keepsLock_of_ready ready, by simp, rfl⟩

theorem keepsLock_trans {a b c : Block} (hab : KeepsLock a b) (hbc : KeepsLock b c) : KeepsLock a c := by
  obtain ⟨_, k, kv, kr, al, av, ar⟩ := hab
  obtain ⟨ready, k', kv', kr', al', av', ar'⟩ := hbc
  exact ⟨ready, k'.trans k, kv'.trans kv, kr'.trans kr, al'.trans al, av'.trans av, ar'.trans ar⟩

theorem BatchAt.more {b₀ b : Block} {i : Nat} (h : BatchAt b₀ i b) (lt : i < b₀.batchRemaining.toNat) :
    b.batchRemaining ≠ 0 := by
  intro h0
  have left : b.batchRemaining.toNat = 0 := by rw [h0]; rfl
  have total := h.remaining
  omega

theorem toNat_sub_one {x : Word} (h : x ≠ 0) : (x - 1).toNat + 1 = x.toNat := by bv_omega

/-- A BATCH_NEXT with codes to come counts one code more, every other instruction none (R181, R182). -/
theorem exec_batchAt {b₀ : Block} {n : Nat} {i : Instr} {s t : State} (h : BatchAt b₀ n s.block)
    (keeps : keepsBatch i = true) (lt : runsBatchNext i = true → n < b₀.batchRemaining.toNat)
    (ht : exec i s = .next t) : BatchAt b₀ (n + if runsBatchNext i then 1 else 0) t.block := by
  obtain ⟨ready, _⟩ := h.lock
  have lock : KeepsLock b₀ t.block :=
    keepsLock_trans h.lock (exec_keepsLock ready (keepsBatch_iff.mp keeps).2 ht)
  by_cases hnext : runsBatchNext i = true
  · obtain ⟨sel, hsel⟩ := runsBatchNext_iff.mp hnext
    have more := h.more (lt hnext)
    have block := batchNext_block hsel ready more ht
    rw [if_pos hnext]
    refine ⟨lock, ?_, ?_⟩
    · simp only [block, advanceBatch_batchNextId, emitCode_batchNextId, prologue_batchNextId, h.next,
        BitVec.ofNat_add, BitVec.add_assoc]
      rfl
    · have left : (s.block.batchRemaining - 1).toNat + 1 = s.block.batchRemaining.toNat := toNat_sub_one more
      have total := h.remaining
      simp only [block, advanceBatch_batchRemaining, emitCode_batchRemaining, prologue_batchRemaining]
      omega
  · obtain ⟨sameId, sameRemaining⟩ := exec_sameBatch ready keeps (Bool.not_eq_true _ ▸ hnext) ht
    rw [if_neg hnext]
    exact ⟨lock, sameId.trans h.next, by rw [sameRemaining]; exact h.remaining⟩

/-- A run that keeps the batch and does not ask for more codes than it has counts its BATCH_NEXTs. -/
theorem execAll_batchAt {b₀ : Block} (is : List Instr) :
    ∀ (n : Nat) (s : State), BatchAt b₀ n s.block → is.all keepsBatch = true →
      n + is.countP runsBatchNext ≤ b₀.batchRemaining.toNat →
      ∃ t, execAll is s = some t ∧ BatchAt b₀ (n + is.countP runsBatchNext) t.block := by
  induction is with
  | nil => exact fun n s h _ _ => ⟨s, rfl, h⟩
  | cons i is ih =>
    intro n s h keeps le
    obtain ⟨keepsHead, keepsTail⟩ : keepsBatch i = true ∧ is.all keepsBatch = true := by simpa using keeps
    obtain ⟨u, hu, _⟩ := exec_answers i s
    rw [List.countP_cons, Nat.add_comm (is.countP _), ← Nat.add_assoc] at le ⊢
    have head := exec_batchAt h keepsHead (fun hnext => by rw [if_pos hnext] at le; omega) hu
    obtain ⟨t, ht, tail⟩ := ih _ u head keepsTail le
    exact ⟨t, by simp only [execAll, hu, ht], tail⟩

/-- No identifier of a batch that BATCH_START accepts wraps (R180). -/
theorem toNat_batchId {b : Block} (fits : ¬ batchOverflows b) {i : Nat} (lt : i < b.countIn.toNat) :
    (b.idIn + BitVec.ofNat 32 i).toNat = b.idIn.toNat + i := by
  have nonempty : b.countIn ≠ 0 := by rintro h; rw [h] at lt; exact absurd lt (Nat.not_lt_zero i)
  have last : b.idIn.toNat + b.countIn.toNat - 1 ≤ 0xFFFFFFFF := Nat.le_of_not_gt fun h => fits ⟨nonempty, h⟩
  have := b.countIn.isLt
  rw [BitVec.toNat_add, BitVec.toNat_ofNat]
  omega

/-! ### The emitted code parses back -/

/-- Under distinct symbols a code whose sum fits in 14 bits parses to its identifier and freshness (R206). -/
theorem parseCode_genCode {key : KeyTable} {alpha : Alphabet} {id : Word} {f : Nibble} (inj : AlphaInjective alpha)
    (fits : sigSum key f id ≤ 16383) : parseCode key alpha 10 (genCode key alpha id f) = .ok (id, f) := by
  have known : firstUnknown alpha (genCode key alpha id f) = none := firstUnknown_encodeSymbols alpha _
  have payload : payloadOf alpha (genCode key alpha id f) = pack (sig14 key f id) f (obf key f id) :=
    payloadOf_encodeSymbols inj _
  have recovered : recoveredId key (pack (sig14 key f id) f (obf key f id)) = id := by
    rw [recoveredId, freshBits_pack, obfBits_pack, obf_involutive]
  have passes : signaturePasses key (pack (sig14 key f id) f (obf key f id)) = true := by
    rw [signaturePasses, recovered, freshBits_pack, sigBits_pack, sig14, BitVec.toNat_ofNat,
      Nat.mod_eq_of_lt (by omega), beq_self_eq_true]
  rw [parseCode_known key known, payload, parsePayload_eq, if_pos passes, recovered, freshBits_pack]

/-- Settles O43: BATCH_START loads the range, the instructions in between count their BATCH_NEXTs, and the next one emits
the code of the identifier they have come to, which no overflow has wrapped. -/
theorem batchCorrespondence : Obligations.BatchCorrespondence := by
  intro s₀ s pre next inv ready hs ok keeps lt hnext
  obtain ⟨fits, start⟩ := batchStart_block ready hs ok
  obtain ⟨u, hu, at_u⟩ := execAll_batchAt pre 0 s (batchAt_zero (by simp [start, ready])) keeps
    (by simp [start, lt.le])
  rw [Nat.zero_add] at at_u
  obtain ⟨t, ht, _⟩ := exec_answers next u
  obtain ⟨sel, hsel⟩ := runsBatchNext_iff.mp hnext
  obtain ⟨ready_u, key_u, _, _, alpha_u, _⟩ := at_u.lock
  have emitted := batchNext_block hsel ready_u (at_u.more (by simpa [start] using lt)) ht
  have key : u.block.key = s₀.block.key := by simp [key_u, start]
  have alpha : u.block.alpha = s₀.block.alpha := by simp [alpha_u, start]
  have idOut : t.block.idOut = s₀.block.idIn + BitVec.ofNat 32 (pre.countP runsBatchNext) := by
    simp [emitted, at_u.next, start]
  have code : t.block.codeOut = genCode s₀.block.key s₀.block.alpha t.block.idOut t.block.freshOut := by
    simp [emitted, key, alpha]
  refine ⟨t, ?_, by simp [emitted], ?_, code, fun hsum => ?_⟩
  · rw [execAll_append pre [next] s u hu]
    simp only [execAll, ht]
  · rw [idOut, toNat_batchId fits lt]
  · rw [code]
    exact parseCode_genCode (inv.committed ready).injective hsum

end Sys2Proof.BatchRuns
end

section
/-! The parse function on generated codes, and the error it never reports: the signature field holds the sum exactly when
the sum fits in 14 bits, and FRESH_RANGE is unreachable (43_parse.md R206, R208). -/

namespace Sys2Proof.ParseFunction
open Sys2Proof.Machine Sys2Proof.Safety Sys2Proof.ConfigChecks Sys2Proof.GenerateDatapath Sys2Proof.BatchRuns

/-! ### Codes whose sum is truncated -/

/-- Any signature field packed with `f` and `Obf(f, id)` gives `id` back: Obf is an involution (R160, R202). -/
theorem recoveredId_pack_obf (key : KeyTable) (sig : Sig) (f : Nibble) (id : Word) :
    recoveredId key (pack sig f (obf key f id)) = id := by
  rw [recoveredId, freshBits_pack, obfBits_pack, obf_involutive]

/-- The full sum is held against the field, so the truncated sum passes exactly when nothing was cut off (R203). -/
theorem signaturePasses_pack_sig14_iff (key : KeyTable) (f : Nibble) (id : Word) :
    signaturePasses key (pack (sig14 key f id) f (obf key f id)) = true ↔ sigSum key f id ≤ 16383 := by
  rw [signaturePasses, recoveredId_pack_obf, freshBits_pack, sigBits_pack, sig14, BitVec.toNat_ofNat, beq_iff_eq]
  omega

/-- Under distinct symbols a code whose sum does not fit in 14 bits parses to SIGNATURE_MISMATCH (R206). -/
theorem parseCode_genCode_of_overflow {key : KeyTable} {alpha : Alphabet} {id : Word} {f : Nibble}
    (inj : AlphaInjective alpha) (overflow : ¬ sigSum key f id ≤ 16383) :
    parseCode key alpha 10 (genCode key alpha id f) = .error (.signatureMismatch, 0) := by
  have fails := mt (signaturePasses_pack_sig14_iff key f id).mp overflow
  rw [genCode, parseCode_known key (firstUnknown_encodeSymbols alpha _), payloadOf_encodeSymbols inj,
    parsePayload_eq, if_neg fails]

/-- A table whose rows are all within capacity has no sum that exceeds 14 bits (R134). -/
theorem sigSum_le_of_capacityRespected {key : KeyTable} (cap : CapacityRespected key) (f : Nibble) (id : Word) :
    sigSum key f id ≤ 16383 :=
  (rowSigSum_le key[rowOf f] id).trans (cap (rowOf f))

/-- Settles O47, by whether the sum fits; within capacity it always does. -/
theorem parseInvertsGenerate : Obligations.ParseInvertsGenerate := by
  intro key alpha id f inj
  refine ⟨?_, fun cap => parseCode_genCode inj (sigSum_le_of_capacityRespected cap f id)⟩
  split_ifs with fits
  · exact parseCode_genCode inj fits
  · exact parseCode_genCode_of_overflow inj fits

/-! ### The error codes an instruction can leave -/

/-- The parse function never answers FRESH_RANGE: a 4-bit field never exceeds 15 (R208). -/
theorem parseCode_error_ne_freshRange {key : KeyTable} {alpha : Alphabet} {len : Word} {str : Symbols} {e : ErrCode}
    {x : Byte} (h : parseCode key alpha len str = .error (e, x)) : e ≠ .freshRange := by
  rcases parseCode_error h with ⟨rfl, _⟩ | ⟨rfl, _⟩
  · exact ErrCode.noConfusion
  · exact ErrCode.noConfusion

/-- Of the errors a command reports only PARSE's could be FRESH_RANGE (R254). -/
theorem ne_freshRange_of_reports {s : State} {c : Cmd} {e : ErrCode} {x : Byte} (h : Reports s c e x) :
    e ≠ .freshRange := by
  cases h with
  | parse e x _ hparse => exact parseCode_error_ne_freshRange hparse
  | _ => exact ErrCode.noConfusion

/-- ERR = 4 is the number of FRESH_RANGE alone (R86). -/
theorem code_eq_four_iff (e : ErrCode) : e.code = 4 ↔ e = .freshRange := by
  cases e <;> decide

/-- A command body leaves ERR or sets it to the error it reports (R121). -/
theorem commandBody_err (c : Cmd) (s : State) :
    (∃ e x, Reports s c e x ∧ (commandBody c s).block.err = e.code) ∨ (commandBody c s).block.err = s.block.err := by
  rcases commandBody_cases c s with ⟨e, x, report, h⟩ | ⟨_, h⟩ | ⟨_, h⟩ | ⟨_, _, _, h⟩ | ⟨_, _, _, h⟩ |
    ⟨_, _, _, _, _, h⟩ | ⟨_, _, _, h⟩ | ⟨_, _, _, _, h⟩
  case inl => exact .inl ⟨e, x, report, by rw [h]; rfl⟩
  all_goals exact .inr (by simp [h])

/-- A table write leaves ERR while UNCONFIGURED and sets CONFIG_LOCKED while READY (R127, R129). -/
theorem unlessLocked_err {action : Block → Block} (keeps : ∀ b, (action b).err = b.err) (b : Block) :
    (unlessLocked action b).err = b.err ∨ (unlessLocked action b).err = ErrCode.configLocked.code := by
  cases hb : b.cfgState with
  | unconfigured => exact .inl (by rw [unlessLocked_unconfigured action hb, keeps])
  | ready => exact .inr (by rw [unlessLocked_ready action hb, raise_err])

/-- An instruction leaves ERR or sets it to the code of an error other than FRESH_RANGE; OK is what the prologue sets
(R120, R250). -/
theorem exec_err {i : Instr} {s t : State} (ht : exec i s = .next t) :
    t.block.err = s.block.err ∨ ∃ e, e ≠ .freshRange ∧ t.block.err = ErrCode.code e := by
  cases hc : commandOf i with
  | some c =>
    rw [exec_command hc] at ht
    cases ht
    rcases commandBody_err c (onBlock prologue s) with ⟨e, x, report, h⟩ | h
    · exact .inr ⟨e, ne_freshRange_of_reports report, h⟩
    · exact .inr ⟨.ok, ErrCode.noConfusion, h⟩
  | none =>
    have locked : ErrCode.configLocked ≠ .freshRange := ErrCode.noConfusion
    cases i <;> simp only [commandOf, reduceCtorEq] at hc
    case wrKey r c v =>
      cases ht
      exact (unlessLocked_err (storeKey_err r c v) s.block).imp_right fun h => ⟨_, locked, h⟩
    case wrAlpha j v =>
      cases ht
      exact (unlessLocked_err (storeAlpha_err j v) s.block).imp_right fun h => ⟨_, locked, h⟩
    case wrStatus v =>
      cases ht
      exact .inl (clearSticky_err v s.block)
    all_goals cases ht; exact .inl rfl

/-- Settles O51: the parse function's errors exclude it, and so do the errors an instruction can set. -/
theorem freshRangeIsNeverReported : Obligations.FreshRangeIsNeverReported := by
  refine ⟨fun key alpha len str x h => parseCode_error_ne_freshRange h rfl, fun i s t ht err => ?_⟩
  rcases exec_err ht with unchanged | ⟨e, ne, written⟩
  · rw [← unchanged, err]
  · exact absurd ((code_eq_four_iff e).mp (written.symm.trans err)) ne

end Sys2Proof.ParseFunction
end

section
/-! Register reads and the writes that are no command and no table write: what each read returns, and that a write
stores its own register and leaves every other read (44_register_access.md R230 to R235). -/

namespace Sys2Proof.RegisterAccess
open Sys2Proof.Machine Sys2Proof.Safety Sys2Proof.Memory Sys2Proof.ConfigCommands

/-! ### Reads -/

/-- Word 2 of a code: two symbols, zero-extended (R91). -/
theorem ofLanes_zero_zero (b0 b1 : Byte) : ofLanes b0 b1 0 0 = (b1 ++ b0).setWidth 32 := by
  apply BitVec.eq_of_toNat_eq
  rw [toNat_ofLanes, BitVec.toNat_setWidth, toNat_append_eq]
  simp
  omega

/-- The two values of PARAMS (R88). -/
theorem paramsWord_eq (p : SigOvfPolicy) : paramsWord p = if p = .reject then 0x00081001 else 0x00081000 := by
  cases p <;> rfl

/-- Settles O12, by the kind of the offset: a named register, a KEY entry, an ALPHA entry or an unmapped place. -/
theorem readReturnsRegister : Obligations.ReadReturnsRegister := by
  intro off s _
  have answers {w : Word} (h : readReg s.policy s.block off = w) :
      (finish (.data (readReg s.policy s.block off)) s).response = .data w := congrArg Response.data h
  have named (k : Fin 16) (h : off = 4 * k.val) := answers ((congrArg _ h).trans (readReg_named s.policy s.block k))
  have key (r : Fin 16) (c : Fin 8) (h : off = keyOffset r c) :=
    answers ((congrArg _ h).trans (readReg_keyOffset s.policy s.block r c))
  have alpha (j : Fin 32) (h : off = alphaOffset j) :=
    answers ((congrArg _ h).trans (readReg_alphaOffset s.policy s.block j))
  exact ⟨_, exec_rd off s, rfl, ended_finish _ s, named 0, named 1, named 2, named 3, named 4, named 5, named 6,
    fun h => (named 7 h).trans (congrArg _ (ofLanes_zero_zero _ _)), named 8, named 9, named 10, named 11,
    fun h => (named 12 h).trans (congrArg _ (ofLanes_zero_zero _ _)), named 13, named 14,
    fun h => (named 15 h).trans (congrArg _ (paramsWord_eq _)), key, alpha,
    fun h => answers (readReg_unmapped _ _ h)⟩

/-! ### Writes -/

/-- A write stores its register when its action changes one read, and no table. -/
theorem writesOffset_of_runWrite {i : Instr} {action : Block → Block} {off : Nat} {v : Word} {s : State}
    (hexec : exec i s = .next (runWrite action s)) (tables : SameTables (action s.block) s.block)
    (own : readReg s.policy (action s.block) off = v)
    (others : ∀ o, o ≠ off → readReg s.policy (action s.block) o = readReg s.policy s.block o) :
    WritesOffset i off v s := by
  refine ⟨_, hexec, ended_runWrite action s, tables, fun o _ => ?_⟩
  split
  case isTrue h => exact h ▸ own
  case isFalse h => exact others o h

theorem readReg_idIn_ne (p : SigOvfPolicy) (b : Block) (v : Word) {o : Nat} (h : o ≠ 0x008) :
    readReg p { b with idIn := v } o = readReg p b o := by
  apply readReg_congr (idIn := fun e => absurd e h) <;> intros <;> rfl

theorem readReg_countIn_ne (p : SigOvfPolicy) (b : Block) (v : Word) {o : Nat} (h : o ≠ 0x00C) :
    readReg p { b with countIn := v } o = readReg p b o := by
  apply readReg_congr (countIn := fun e => absurd e h) <;> intros <;> rfl

theorem readReg_codeInLen_ne (p : SigOvfPolicy) (b : Block) (v : Word) {o : Nat} (h : o ≠ 0x010) :
    readReg p { b with codeInLen := v } o = readReg p b o := by
  apply readReg_congr (codeInLen := fun e => absurd e h) <;> intros <;> rfl

/-- A write of one word of CODE_IN leaves the other two, and every other register (R234). -/
theorem readReg_storeCodeIn_ne (p : SigOvfPolicy) (b : Block) (n : Fin 3) (v : Word) {o : Nat}
    (h : o ≠ 0x014 + 4 * n.val) : readReg p (storeCodeIn n v b) o = readReg p b o := by
  have codeIn (m : Fin 3) (e : o = 0x014 + 4 * m.val) :
      codeWord (storeCodeIn n v b).codeIn m = codeWord b.codeIn m :=
    codeWord_setCodeWord_ne b.codeIn v fun same => h (same ▸ e)
  apply readReg_congr (codeIn := codeIn) <;> intros <;> rfl

/-- The three CODE_IN writes, given what a word reads as after its own write (R234). -/
theorem writesOffset_storeCodeIn {i : Instr} (n : Fin 3) {v w : Word} {s : State}
    (hexec : exec i s = .next (runWrite (storeCodeIn n v) s))
    (own : codeWord (setCodeWord s.block.codeIn n v) n = w) : WritesOffset i (0x014 + 4 * n.val) w s :=
  writesOffset_of_runWrite hexec ⟨rfl, rfl, rfl, rfl, rfl, rfl⟩
    ((reads_codeIn (runWrite (storeCodeIn n v) s) n).trans own)
    fun _ => readReg_storeCodeIn_ne _ _ n v

/-- Settles O15: each operand write changes the read of its own offset only. -/
theorem operandWritesStoreTheirRegister : Obligations.OperandWritesStoreTheirRegister := by
  intro v s
  refine ⟨rfl, rfl, ?idIn, ?countIn, ?codeInLen, ?codeIn0, ?codeIn1, ?codeIn2⟩
  case idIn =>
    exact writesOffset_of_runWrite (exec_wrIdIn v s) ⟨rfl, rfl, rfl, rfl, rfl, rfl⟩ rfl
      fun _ => readReg_idIn_ne _ _ v
  case countIn =>
    exact writesOffset_of_runWrite (exec_wrCountIn v s) ⟨rfl, rfl, rfl, rfl, rfl, rfl⟩ rfl
      fun _ => readReg_countIn_ne _ _ v
  case codeInLen =>
    exact writesOffset_of_runWrite (exec_wrCodeInLen v s) ⟨rfl, rfl, rfl, rfl, rfl, rfl⟩ rfl
      fun _ => readReg_codeInLen_ne _ _ v
  case codeIn0 => exact writesOffset_storeCodeIn 0 (exec_wrCodeIn0 v s) (codeWord_setCodeWord_zero _ v)
  case codeIn1 => exact writesOffset_storeCodeIn 1 (exec_wrCodeIn1 v s) (codeWord_setCodeWord_one _ v)
  case codeIn2 => exact writesOffset_storeCodeIn 2 (exec_wrCodeIn2 v s) (codeWord_setCodeWord_two _ v)

/-! ### The STATUS write -/

/-- STATUS after a STATUS write: ERR_STICKY is cleared where bit 3 of the word is set (R85, R235). -/
theorem statusWord_clearSticky (v : Word) (b : Block) :
    statusWord (clearSticky v b) = if v.getLsbD 3 then statusWord b &&& 0xFFFFFFF7 else statusWord b := by
  split
  case isTrue h =>
    apply statusWord_eq
    intro i hi
    rw [BitVec.getLsbD_and, statusWord_getLsbD, statusWord_getLsbD]
    interval_cases i <;> simp [readyFlag, batchActive, h]
  case isFalse h => rw [clearSticky, if_neg h]

theorem readReg_clearSticky_ne (p : SigOvfPolicy) (v : Word) (b : Block) {o : Nat} (h : o ≠ 0x004) :
    readReg p (clearSticky v b) o = readReg p b o := by
  apply readReg_congr (status := fun e => absurd e h) <;> intros <;> simp

/-- Settles O16: STATUS changes in ERR_STICKY alone, and no other register shows that bit. -/
theorem statusWriteClearsStickyOnly : Obligations.StatusWriteClearsStickyOnly := by
  intro v s
  have tables : SameTables (clearSticky v s.block) s.block :=
    ⟨clearSticky_key v _, clearSticky_keyValid v _, clearSticky_keyRangeErr v _,
      clearSticky_alpha v _, clearSticky_alphaValid v _, clearSticky_alphaRangeErr v _⟩
  exact ⟨rfl, writesOffset_of_runWrite (exec_wrStatus v s) tables (statusWord_clearSticky v s.block)
    fun _ => readReg_clearSticky_ne _ v _⟩

end Sys2Proof.RegisterAccess
end

section
/-! The errors of commands and of table writes: each is reported, and nothing else of the block changes (60_exceptions.md
R252 to R259). -/

namespace Sys2Proof.ErrorReports
open Sys2Proof.Machine Sys2Proof.Safety Sys2Proof.Memory Sys2Proof.ConfigCommands Sys2Proof.GenerateDatapath
open Sys2Proof.GenerateCommand Sys2Proof.ParseFunction Sys2Proof.RegisterAccess

/-! ### CONFIG_LOCKED -/

/-- A report shows in STATUS alone (R121). -/
theorem readReg_raise_ne (p : SigOvfPolicy) (e : ErrCode) (c : Byte) (b : Block) {o : Nat} (h : o ≠ 0x004) :
    readReg p (raise e c b) o = readReg p b o := by
  apply readReg_congr (status := fun hs => absurd hs h) <;> intros <;> rfl

/-- While READY a table write, whatever it would store, is a report of CONFIG_LOCKED (R127, R129, R258). -/
theorem writesOffset_of_locked {i : Instr} {action : Block → Block} {s : State} (ready : s.block.cfgState = .ready)
    (hexec : exec i s = .next (runWrite (unlessLocked action) s)) :
    WritesOffset i 0x004 (reads s 0x004 &&& 0x00000007 ||| 0x00000088) s := by
  have locked := unlessLocked_ready action ready
  apply writesOffset_of_runWrite hexec <;> rw [locked]
  case tables => exact ⟨rfl, rfl, rfl, rfl, rfl, rfl⟩
  case own => exact statusWord_raise .configLocked 0 s.block
  case others => exact fun _ => readReg_raise_ne _ _ _ _

/-- Settles O19: the lock turns either table write into its report, and CFG_COMMIT makes the same report. -/
theorem lockedTableWriteOnlyReports : Obligations.LockedTableWriteOnlyReports := by
  intro s ready
  refine ⟨fun r c v => ?key, fun j v => ?alpha, ?commit⟩
  case key => exact writesOffset_of_locked ready (exec_wrKey r c v s)
  case alpha => exact writesOffset_of_locked ready (exec_wrAlpha j v s)
  case commit => exact exec_of_report (c := .cfgCommit) rfl ((cfgCommitBody_eq _).trans (if_pos ready))

/-! ### NOT_CONFIGURED -/

/-- The commands that need a Codec check for it before anything else (R256, R261). -/
theorem commandBody_of_needsCodec {i : Instr} (h : needsCodec i = true) :
    ∃ c body, commandOf i = some c ∧ commandBody c = whenConfigured body := by
  cases i <;> simp only [needsCodec, Bool.false_eq_true] at h <;> exact ⟨_, _, rfl, rfl⟩

/-- Settles O36: the check fails before the body is entered, so nothing is drawn. -/
theorem unconfiguredCommandsReportNotConfigured : Obligations.UnconfiguredCommandsReportNotConfigured := by
  intro i s hi unconfigured
  obtain ⟨c, body, hc, hbody⟩ := commandBody_of_needsCodec hi
  have report : commandBody c (onBlock prologue s) = raiseIn .notConfigured 0 (onBlock prologue s) := by
    rw [hbody]; exact whenConfigured_unconfigured body unconfigured
  exact exec_of_report hc report

/-! ### ENCODING_RANGE -/

/-- BATCH_START of a range that does not fit in 32 bits (R180, R252). -/
theorem exec_batchStart_of_overflows {s : State} (ready : s.block.cfgState = .ready)
    (overflow : batchOverflows s.block) :
    ∃ t, exec .batchStart s = .next t ∧ Ended .done s t ∧ OnlyRaised 2 0 s.block t.block :=
  exec_of_report (c := .batchStart) (e := .encodingRange) rfl
    ((batchStartBody_eq _).trans ((if_pos ready).trans (if_pos overflow)))

/-- The only error of GENERATE (R158). -/
theorem eq_notConfigured_of_reports_generate {s : State} {sel : FreshSel} {e : ErrCode} {x : Byte}
    (h : Reports s (.generate sel) e x) : e = .notConfigured := by
  cases h; rfl

/-- GENERATE ends with ERR = OK or NOT_CONFIGURED (R158, R256). -/
theorem exec_generate_err {i : Instr} {sel : FreshSel} {s t : State} (hi : commandOf i = some (.generate sel))
    (ht : exec i s = .next t) : t.block.err = ErrCode.ok.code ∨ t.block.err = ErrCode.notConfigured.code := by
  rw [exec_command hi] at ht
  cases ht
  rcases commandBody_err (.generate sel) (onBlock prologue s) with ⟨e, x, report, err⟩ | err
  · exact .inr (eq_notConfigured_of_reports_generate report ▸ err)
  · exact .inl err

/-- Settles O39: the range is the body's second check, and the errors of GENERATE do not include it. -/
theorem batchStartRefusesOverflow : Obligations.BatchStartRefusesOverflow := by
  refine ⟨fun s ready nonempty beyond => exec_batchStart_of_overflows ready ⟨nonempty, beyond⟩, fun i s t hi ht => ?_⟩
  obtain ⟨sel, hsel⟩ := commandOf_generate hi
  rcases exec_generate_err hsel ht with err | err <;> rw [err] <;> decide

/-! ### BATCH_EMPTY -/

/-- Settles O41: forced or not, the count is checked before the selection. -/
theorem emptyBatchOnlyReports : Obligations.EmptyBatchOnlyReports := by
  intro i s hi ready empty
  obtain ⟨sel, hsel⟩ : ∃ sel, commandOf i = some (.batchNext sel) := by
    rcases hi with rfl | ⟨f, rfl⟩ <;> exact ⟨_, rfl⟩
  exact exec_of_report (e := .batchEmpty) hsel
    ((batchNextBody_eq sel _).trans ((if_pos ready).trans (if_pos empty)))

/-! ### The errors of PARSE -/

/-- PARSE while READY reports what the parse function answers (R205). -/
theorem exec_parse_of_error {s : State} {e : ErrCode} {x : Byte} (ready : s.block.cfgState = .ready)
    (h : parseCode s.block.key s.block.alpha s.block.codeInLen s.block.codeIn = .error (e, x)) :
    ∃ t, exec .parse s = .next t ∧ Ended .done s t ∧ OnlyRaised e.code x s.block t.block := by
  refine exec_of_report (c := .parse) rfl ((parseBody_eq _).trans ((if_pos ready).trans ?_))
  simp only [onBlock_block, prologue_key, prologue_alpha, prologue_codeInLen, prologue_codeIn, h]

/-- `k` is the lowest unknown position when it is unknown and every lower one is known (R204). -/
theorem firstUnknown_eq_some {alpha : Alphabet} {str : Symbols} {k : Fin 10}
    (known : ∀ j : Fin 10, j < k → ∃ x : Fin 32, alpha[x] = str[j]) (unknown : ∀ x : Fin 32, alpha[x] ≠ str[k]) :
    firstUnknown alpha str = some k := by
  refine List.find?_eq_some_iff_getElem.mpr ⟨(symIndex_isNone_iff alpha _).mpr unknown, k.val, by simp, by simp, ?_⟩
  intro j hj
  obtain ⟨x, hx⟩ := known ⟨j, hj.trans k.isLt⟩ hj
  simp only [List.getElem_finRange, Bool.not_eq_true', Bool.eq_false_iff, ne_eq, symIndex_isNone_iff]
  exact fun unmatched => unmatched x hx

/-- Settles O46: the length is checked first, then the symbols from position 0 on. -/
theorem parseReportsFormatErrors : Obligations.ParseReportsFormatErrors := by
  intro s ready
  refine ⟨fun badLength => ?_, fun k length known unknown => ?_⟩
  · exact exec_parse_of_error (e := .decodeFormat) ready (parseCode_badLength _ _ _ badLength)
  · refine exec_parse_of_error (e := .decodeFormat) ready ?_
    rw [length]
    exact parseCode_unknown _ (firstUnknown_eq_some known unknown)

/-! ### The signature check in plain arithmetic -/

theorem toNat_sigBits (p : Payload) : (sigBits p).toNat = p.toNat / 2 ^ 36 := by
  rw [sigBits, toNat_field, Nat.mod_eq_of_lt]
  have := p.isLt
  omega

theorem freshBits_eq_freshOfNat (p : Payload) : freshBits p = freshOfNat p.toNat := by
  apply BitVec.eq_of_toNat_eq
  rw [freshBits, toNat_field, freshOfNat, BitVec.toNat_ofNat]

/-- The identifier recovered from a payload, as a number (R202). -/
theorem toNat_recoveredId (key : KeyTable) (p : Payload) : (recoveredId key p).toNat = recoveredNat key p.toNat := by
  rw [recoveredId, toNat_obf, freshBits_eq_freshOfNat, obfBits, toNat_field, pow_zero, Nat.div_one, recoveredNat]

/-- The signature check compares the same two numbers (R203). -/
theorem signaturePasses_iff (key : KeyTable) (p : Payload) :
    signaturePasses key p = true ↔ SignatureHolds key p.toNat := by
  rw [signaturePasses, beq_iff_eq, ← sumNat_toNat, toNat_recoveredId, freshBits_eq_freshOfNat, toNat_sigBits,
    SignatureHolds]

/-- Ten symbols of the Alphabet parse to what the checks of their payload answer (R201, R204). -/
theorem parseCode_of_symbolsAre (key : KeyTable) {alpha : Alphabet} {str : Symbols} {idx : Fin 10 → SymIndex}
    (inj : AlphaInjective alpha) (symbols : SymbolsAre alpha str idx) :
    parseCode key alpha 10 str = parsePayload key (unpack idx) := by
  have known : firstUnknown alpha str = none :=
    (firstUnknown_eq_none_iff alpha str).mpr fun k => ⟨_, (symbols k).symm⟩
  rw [parseCode_known key known, payloadOf_symbols inj symbols]

/-- Settles O45: the symbols are known, so the payload's signature decides, and it is the number of the statement. -/
theorem parseReportsSignatureMismatch : Obligations.ParseReportsSignatureMismatch := by
  intro s idx ready length inj symbols mismatch
  have fails : ¬ signaturePasses s.block.key (unpack idx) = true := by
    rwa [signaturePasses_iff, toNat_unpack_eq_unpackNat]
  refine exec_parse_of_error (e := .signatureMismatch) ready ?_
  rw [length, parseCode_of_symbolsAre _ inj symbols, parsePayload_eq, if_neg fails]

end Sys2Proof.ErrorReports
end

section
/-! Reset between accesses: the step takes it, and what the block holds afterwards (70_reset_and_hazards.md R280). -/

namespace Sys2Proof.ResetState
open Sys2Proof.Machine Sys2Proof.Safety

/-- A reset at the head of the port is taken as the step (R68, R280). -/
theorem step_of_reset {s : State} {rest : List PortEvent} (hport : s.port = .reset :: rest) :
    step s = .next (takeReset s) := by
  simp only [step, fetch, hport]

/-! ### The tables and the operand string, entry by entry -/

theorem reset_key_entry (r : Fin 16) (c : Fin 8) :
    (Block.reset.key[r])[c] = 0 ∧ (Block.reset.keyValid[r])[c] = false := by
  simp only [reset_key, reset_keyValid, Fin.getElem_fin, Vector.getElem_replicate, and_self]

theorem reset_alpha_entry (j : Fin 32) : Block.reset.alpha[j] = 0 ∧ Block.reset.alphaValid[j] = false := by
  simp only [reset_alpha, reset_alphaValid, Fin.getElem_fin, Vector.getElem_replicate, and_self]

theorem reset_codeIn_entry (k : Fin 10) : Block.reset.codeIn[k] = 0 := by
  simp only [reset_codeIn, Fin.getElem_fin, Vector.getElem_replicate]

/-! ### The results -/

theorem reset_noResults : NoResults Block.reset :=
  ⟨reset_idOut, reset_freshOut, fun k => by simp only [reset_codeOut, Fin.getElem_fin, Vector.getElem_replicate],
    reset_outValid⟩

/-- Settles O10: the step takes the reset, which puts the block after reset in place and leaves the draw counter. -/
theorem resetClearsTheBlock : Obligations.ResetClearsTheBlock := by
  intro s rest hport
  refine ⟨takeReset s, step_of_reset hport, takeReset_draws s, ?_⟩
  rw [takeReset_block]
  exact ⟨reset_cfgState, reset_key_entry, reset_alpha_entry, reset_keyRangeErr, reset_alphaRangeErr, reset_idIn,
    reset_countIn, reset_codeIn_entry, reset_codeInLen, reset_noResults, ⟨reset_err, reset_cause⟩, reset_errSticky,
    reset_batchNextId, reset_batchRemaining⟩

end Sys2Proof.ResetState
end

section
/-! Decode and encode are inverse to each other: command words by their fields, table writes by their offsets
(30_encoding.md R82, R83, R89, R90; 20_memory.md R61, R73, R74). -/

namespace Sys2Proof.DecodeEncode
open Sys2Proof.Machine Sys2Proof.Safety Sys2Proof.Memory Sys2Proof.LegalWords

/-! ### Legal command words -/

/-- The rows of the 7 legal words without F (R82). -/
theorem rows_of_unforcedWords :
    (unforcedWords.all fun w => wellFormed (cmdRow w) && decide (encode (cmdRow w) = .cmd w)) = true := by decide

theorem cmdRow_forcedGenerate : ∀ f, cmdRow (forcedWord 0x00000013 f) = .genF f := by decide

theorem cmdRow_forcedBatchNext : ∀ f, cmdRow (forcedWord 0x00000016 f) = .batchNextF f := by decide

/-! ### Illegal command words -/

/-- No word with a reserved operation code is legal (R82, R83). -/
theorem not_legal_of_reservedOp {w : Word} (h : 7 ≤ (opField w).toNat) : legal w = false := by
  have reserved : ∀ op ∈ ([0x0, 0x1, 0x2, 0x4, 0x5, 0x3, 0x6] : List (BitVec 4)), op.toNat < 7 := by decide
  rw [Bool.eq_false_iff]
  intro hl
  obtain ⟨_, ⟨hop, _⟩ | ⟨hop, _⟩⟩ := (legal_iff_fields w).mp hl
  · exact absurd (reserved _ (List.mem_append_left [0x3, 0x6] hop)) (by omega)
  · exact absurd (reserved _ (List.mem_append_right [0x0, 0x1, 0x2, 0x4, 0x5] hop)) (by omega)

theorem cmdRow_of_not_legal {w : Word} (h : legal w = false) : cmdRow w = illegalRow w := by
  rw [cmdRow, decodeCmd_of_not_legal h]

theorem getLsbD_three_iff (w : Word) : w.getLsbD 3 = true ↔ 8 ≤ (opField w).toNat := by
  rw [BitVec.getLsbD, Nat.testBit_eq_decide_div_mod_eq, toNat_opField, decide_eq_true_eq]
  omega

/-- A word is its bits [31:4] and its OP (R81). -/
theorem rest_append_opField (w : Word) : w.extractLsb' 4 28 ++ opField w = w := by
  apply BitVec.eq_of_toNat_eq
  rw [toNat_append_eq, toNat_field, toNat_opField]
  have := w.isLt
  omega

/-- An OP of 0x8 to 0xF is a 1 and its three low bits. -/
theorem one_append_opLow {w : Word} (h : 8 ≤ (opField w).toNat) : 1#1 ++ w.extractLsb' 0 3 = opField w := by
  apply BitVec.eq_of_toNat_eq
  rw [toNat_append_eq, toNat_field]
  rw [toNat_opField] at h ⊢
  simp
  omega

theorem opField_append (rest : BitVec 28) (op : BitVec 4) : opField (rest ++ op) = op := by
  apply BitVec.eq_of_toNat_eq
  rw [toNat_opField, toNat_append_eq]
  omega

theorem rest_append (rest : BitVec 28) (op : BitVec 4) : (rest ++ op).extractLsb' 4 28 = rest := by
  apply BitVec.eq_of_toNat_eq
  rw [toNat_field, toNat_append_eq]
  omega

/-- The row of an illegal word has that word as its encoding (R126). -/
theorem row_of_illegalWord {w : Word} (h : legal w = false) :
    wellFormed (illegalRow w) = true ∧ encode (illegalRow w) = .cmd w := by
  unfold illegalRow
  split_ifs with hop hbit
  · exact ⟨rfl, congrArg Encoded.cmd (by rw [show (0x7#4) = opField w from hop.symm, rest_append_opField])⟩
  · have high := (getLsbD_three_iff w).mp hbit
    exact ⟨rfl, congrArg Encoded.cmd (by rw [one_append_opLow high, rest_append_opField])⟩
  · refine ⟨?_, rfl⟩
    have low := mt (getLsbD_three_iff w).mpr hbit
    have ne : (opField w).toNat ≠ 7 := fun h7 => hop (BitVec.eq_of_toNat_eq h7)
    have lt : opField w < 0x7 := BitVec.lt_def.mpr (show (opField w).toNat < 7 by omega)
    rw [wellFormed, isOtherIllegal, h, decide_eq_true lt]
    rfl

/-- The row of a command word is well formed and has that word as its encoding (R82, R126). -/
theorem row_of_word (w : Word) : wellFormed (cmdRow w) = true ∧ encode (cmdRow w) = .cmd w := by
  cases hl : legal w with
  | false =>
    rw [cmdRow_of_not_legal hl]
    exact row_of_illegalWord hl
  | true =>
    rcases (mem_listedWords w).mp ((legal_iff_mem_listedWords w).mp hl) with hw | ⟨f, rfl | rfl⟩
    · simpa using List.all_eq_true.mp rows_of_unforcedWords w hw
    · rw [cmdRow_forcedGenerate]; exact ⟨rfl, rfl⟩
    · rw [cmdRow_forcedBatchNext]; exact ⟨rfl, rfl⟩

theorem cmdRow_illegalOp7 (rest : BitVec 28) : cmdRow (rest ++ 0x7#4) = .illegalOp7 rest := by
  have op : opField (rest ++ 0x7#4) = 0x7 := opField_append rest 0x7#4
  rw [cmdRow_of_not_legal (not_legal_of_reservedOp (by rw [op]; decide)), illegalRow, if_pos op, rest_append]

theorem cmdRow_illegalOp8F (rest : BitVec 28) (opLow : BitVec 3) :
    cmdRow (rest ++ (1#1 ++ opLow)) = .illegalOp8F rest opLow := by
  have op := opField_append rest (1#1 ++ opLow)
  have opNat : (1#1 ++ opLow).toNat = 8 + opLow.toNat := toNat_append_eq 1#1 opLow
  have high : 8 ≤ (opField (rest ++ (1#1 ++ opLow))).toNat := by rw [op, opNat]; omega
  have ne : opField (rest ++ (1#1 ++ opLow)) ≠ 0x7 := fun h7 => by rw [h7] at high; exact absurd high (by decide)
  have low : (rest ++ (1#1 ++ opLow)).extractLsb' 0 3 = opLow := by
    apply BitVec.eq_of_toNat_eq
    rw [toNat_field, toNat_append_eq, opNat]
    omega
  rw [cmdRow_of_not_legal (not_legal_of_reservedOp (by omega)), illegalRow, if_neg ne,
    if_pos ((getLsbD_three_iff _).mpr high), rest_append, low]

theorem cmdRow_illegalOther {w : Word} (h : isOtherIllegal w = true) : cmdRow w = .illegalOther w := by
  simp only [isOtherIllegal, Bool.and_eq_true, Bool.not_eq_true', decide_eq_true_eq] at h
  obtain ⟨hl, hop⟩ := h
  have lt : (opField w).toNat < 7 := hop
  have ne : opField w ≠ 0x7 := fun h7 => by rw [h7] at lt; exact absurd lt (by decide)
  have bit : ¬ w.getLsbD 3 = true := by rw [getLsbD_three_iff]; omega
  rw [cmdRow_of_not_legal hl, illegalRow, if_neg ne, if_neg bit]

/-! ### Table writes -/

theorem admitted_keyOffset (r : Fin 16) (c : Fin 8) : admitted (keyOffset r c) 4 = true := by
  rw [admitted_iff, keyOffset]; omega

theorem admitted_alphaOffset (j : Fin 32) : admitted (alphaOffset j) 4 = true := by
  rw [admitted_iff, alphaOffset]; omega

theorem decodeWrite_keyWindow {off : Nat} (h : inKeyWindow off) (v : Word) :
    decodeWrite off v = .ok (.wrKey (keyRowOf off h) (keyColOf off) v) := by
  obtain ⟨h1, h2⟩ := h
  unfold decodeWrite
  repeat rw [if_neg (by omega)]
  rw [dif_pos ⟨h1, h2⟩]

theorem decodeWrite_alphaWindow {off : Nat} (h : inAlphaWindow off) (v : Word) :
    decodeWrite off v = .ok (.wrAlpha (alphaIndexOf off h) v) := by
  obtain ⟨h1, h2⟩ := h
  unfold decodeWrite
  repeat rw [if_neg (by omega)]
  rw [dif_neg (by simp only [inKeyWindow]; omega), dif_pos ⟨h1, h2⟩]

theorem decode_wrKey (r : Fin 16) (c : Fin 8) (v : Word) :
    decode (.access (.write (keyOffset r c) 4 v)) = .ok (.wrKey r c v) := by
  rw [decode_admitted_write v (admitted_keyOffset r c), decodeWrite_keyWindow (inKeyWindow_keyOffset r c),
    keyRowOf_keyOffset, keyColOf_keyOffset]

theorem decode_wrAlpha (j : Fin 32) (v : Word) :
    decode (.access (.write (alphaOffset j) 4 v)) = .ok (.wrAlpha j v) := by
  rw [decode_admitted_write v (admitted_alphaOffset j), decodeWrite_alphaWindow (inAlphaWindow_alphaOffset j),
    alphaIndexOf_alphaOffset]

theorem decode_rd {off : Nat} (h : admitted off 4 = true) : decode (.access (.read off 4)) = .ok (.rd off) := by
  simp [decode, decodeAccess, h]

/-! ### Both directions -/

/-- Settles O3: command words by their fields, table writes by their offsets, and every other row by its fixed encoding. -/
theorem decodeOfEncode : Obligations.DecodeOfEncode := by
  intro i wf
  cases i with
  | genF f => exact congrArg Except.ok (cmdRow_forcedGenerate f)
  | batchNextF f => exact congrArg Except.ok (cmdRow_forcedBatchNext f)
  | illegalOp7 rest => exact congrArg Except.ok (cmdRow_illegalOp7 rest)
  | illegalOp8F rest opLow => exact congrArg Except.ok (cmdRow_illegalOp8F rest opLow)
  | illegalOther w => exact congrArg Except.ok (cmdRow_illegalOther wf)
  | wrKey r c v => exact decode_wrKey r c v
  | wrAlpha j v => exact decode_wrAlpha j v
  | rd off => exact decode_rd wf
  | busError a => exact decode_of_not_admitted (by simpa [wellFormed] using wf)
  | _ => rfl

/-- An admitted write that decodes to an instruction is the encoding of that instruction, which is well formed. -/
theorem encode_of_decodeWrite {off : Nat} {v : Word} {i : Instr} (aligned : off % 4 = 0)
    (h : decodeWrite off v = .ok i) : wellFormed i = true ∧ encode i = .access (.write off 4 v) := by
  rcases decodeWrite_ok_cases h with ⟨rfl, rfl⟩ | ⟨rfl, rfl⟩ | ⟨rfl, rfl⟩ | ⟨rfl, rfl⟩ | ⟨rfl, rfl⟩ | ⟨rfl, rfl⟩ |
    ⟨rfl, rfl⟩ | ⟨rfl, rfl⟩ | ⟨hk, rfl⟩ | ⟨ha, rfl⟩
  case inr.inr.inr.inr.inr.inr.inr.inr.inl => exact ⟨rfl, by rw [encode, keyOffset_keyRowOf hk aligned]⟩
  case inr.inr.inr.inr.inr.inr.inr.inr.inr => exact ⟨rfl, by rw [encode, alphaOffset_alphaIndexOf ha aligned]⟩
  all_goals exact ⟨rfl, rfl⟩

/-- What decodes to an instruction is that instruction's encoding, and the instruction is well formed. -/
theorem encode_of_decode {e : Encoded} {i : Instr} (h : decode e = .ok i) : wellFormed i = true ∧ encode i = e := by
  cases e with
  | cmd w =>
    cases h
    exact row_of_word w
  | access a =>
    rcases decodeAccess_ok_cases h with ⟨off, rfl, admitted, rfl⟩ | ⟨refused, rfl⟩ | ⟨off, v, rfl, admitted, hw⟩
    · exact ⟨admitted, rfl⟩
    · exact ⟨by simp [wellFormed, refused], rfl⟩
    · exact encode_of_decodeWrite ((admitted_iff off 4).mp admitted).2.1 hw

/-- A write to a read-only register or an unmapped offset has no row (R73, R74). -/
theorem decodeWrite_of_ignored {off : Nat} (v : Word) (h : isReadOnly off ∨ isUnmapped off) :
    decodeWrite off v = .error (.ignoredWrite off v) := by
  unfold decodeWrite
  repeat rw [if_neg (by omega)]
  rw [dif_neg (by simp only [inKeyWindow]; omega), dif_neg (by simp only [inAlphaWindow]; omega)]

/-- The 8 registers below the read-only ones have rows (R80). -/
theorem decodeWrite_register (k : Fin 8) (v : Word) : ∃ i, decodeWrite (4 * k.val) v = .ok i := by
  fin_cases k <;> exact ⟨_, rfl⟩

/-- Every other aligned write inside the window has a row (R80, R89, R90). -/
theorem decodeWrite_of_not_ignored {off : Nat} (v : Word) (aligned : off % 4 = 0) (le : off ≤ 0x3FC)
    (h : ¬ (isReadOnly off ∨ isUnmapped off)) : ∃ i, decodeWrite off v = .ok i := by
  rcases Nat.lt_or_ge off 0x020 with low | high
  · obtain ⟨i, hi⟩ := decodeWrite_register ⟨off / 4, by omega⟩ v
    exact ⟨i, by rwa [Nat.mul_div_cancel' (Nat.dvd_of_mod_eq_zero aligned)] at hi⟩
  · rcases Nat.lt_or_ge off 0x300 with key | alpha
    · exact ⟨_, decodeWrite_keyWindow ⟨by omega, by omega⟩ v⟩
    · exact ⟨_, decodeWrite_alphaWindow ⟨alpha, by omega⟩ v⟩

/-- An aligned write inside the window has no row exactly at the read-only registers and the unmapped offsets (R73, R74). -/
theorem decodeWrite_error_iff {off : Nat} (v : Word) (aligned : off % 4 = 0) (le : off ≤ 0x3FC) (u : Unlisted) :
    decodeWrite off v = .error u ↔ u = .ignoredWrite off v ∧ (isReadOnly off ∨ isUnmapped off) := by
  by_cases hoff : isReadOnly off ∨ isUnmapped off
  · simp only [decodeWrite_of_ignored v hoff, Except.error.injEq, hoff, and_true, eq_comm]
  · obtain ⟨i, hi⟩ := decodeWrite_of_not_ignored v aligned le hoff
    simp only [hi, reduceCtorEq, hoff, and_false]

/-- Only an admitted write can be without a row (R73, R74). -/
theorem write_of_decode_error {e : Encoded} {u : Unlisted} (h : decode e = .error u) :
    ∃ off v, e = .access (.write off 4 v) ∧ admitted off 4 = true ∧ decodeWrite off v = .error u := by
  match e with
  | .cmd w => cases h
  | .access (.read off n) =>
    simp only [decode, decodeAccess] at h
    split at h <;> cases h
  | .access (.write off n v) =>
    simp only [decode, decodeAccess] at h
    split at h
    next hadm =>
      obtain rfl := ((admitted_iff off n).mp hadm).1
      exact ⟨off, v, rfl, hadm, h⟩
    next => cases h

/-- Settles O4: rows and accesses encode back, and only an admitted write to such an offset has no row. -/
theorem encodeOfDecode : Obligations.EncodeOfDecode := by
  refine ⟨fun e i => encode_of_decode, fun e off v => ⟨fun h => ?_, ?_⟩⟩
  · obtain ⟨off', v', rfl, hadm, hw⟩ := write_of_decode_error h
    obtain ⟨_, aligned, le⟩ := (admitted_iff off' 4).mp hadm
    obtain ⟨hu, hoff⟩ := (decodeWrite_error_iff v' aligned le _).mp hw
    cases hu
    exact ⟨rfl, aligned, hoff⟩
  · rintro ⟨rfl, aligned, hoff⟩
    have le : off ≤ 0x3FC := by omega
    rw [decode_admitted_write v ((admitted_iff off 4).mpr ⟨rfl, aligned, le⟩)]
    exact (decodeWrite_error_iff v aligned le _).mpr ⟨rfl, hoff⟩

/-! ### The windows -/

/-- Settles O5: the row, column and index computed from an aligned offset are those of the one entry that stands there. -/
theorem tableWindowsAreBijective : Obligations.TableWindowsAreBijective := by
  refine ⟨fun r c => ⟨rfl, admitted_keyOffset r c, inKeyWindow_keyOffset r c⟩, fun off aligned h => ?_,
    fun j => ⟨rfl, admitted_alphaOffset j, inAlphaWindow_alphaOffset j⟩, fun off aligned h => ?_⟩
  · refine ⟨keyRowOf off h, keyColOf off, keyOffset_keyRowOf h aligned, rfl, rfl, fun r' c' hoff => ?_⟩
    subst hoff
    exact ⟨(keyRowOf_keyOffset r' c' h).symm, (keyColOf_keyOffset r' c').symm⟩
  · refine ⟨alphaIndexOf off h, alphaOffset_alphaIndexOf h aligned, rfl, fun j' hoff => ?_⟩
    subst hoff
    exact (alphaIndexOf_alphaOffset j' h).symm

/-! ### Words written out -/

/-- Settles O1: each word or access written out is the encoding of its instruction, so it is read back as that. -/
theorem sampleWordsDecode : Obligations.SampleWordsDecode :=
  ⟨decodeOfEncode (.genF 13) rfl, decodeOfEncode (.batchNextF 5) rfl, decodeOfEncode .parse rfl,
    decodeOfEncode (.illegalOther 0x00001003) rfl, decodeOfEncode (.wrKey 3 5 11) rfl,
    decodeOfEncode (.wrAlpha 31 0x39) rfl, decodeOfEncode (.busError (.read 0x004 1)) rfl⟩

end Sys2Proof.DecodeEncode
end

section
/-! The block after reset and the STATUS word: their reads through the bus (30_encoding.md R85; 70_reset_and_hazards.md
R281). -/

namespace Sys2Proof.StatusReads
open Sys2Proof.Machine Sys2Proof.Safety Sys2Proof.Memory Sys2Proof.ConfigCommands Sys2Proof.RegisterAccess
open Sys2Proof.ResetState

/-! ### After reset -/

/-- The 16 named registers read 0 after reset, but for PARAMS (R281). -/
theorem readReg_reset_named (p : SigOvfPolicy) (k : Fin 16) :
    readReg p Block.reset (4 * k.val) = if k = 15 then paramsWord p else 0 := by
  rw [readReg_named]
  cases p <;> revert k <;> decide

/-- Every admitted offset reads 0 after reset, but for PARAMS (R281). -/
theorem readReg_reset (p : SigOvfPolicy) {off : Nat} (h : admitted off 4 = true) :
    readReg p Block.reset off = if off = 0x03C then paramsWord p else 0 := by
  rcases offset_cases h with ⟨k, rfl⟩ | hoff | ⟨r, c, rfl⟩ | ⟨j, rfl⟩
  · rw [readReg_reset_named]
    exact if_congr (by omega) rfl rfl
  · rw [readReg_unmapped p _ hoff, if_neg (by omega)]
  · obtain ⟨key, _⟩ := reset_key_entry r c
    rw [readReg_keyOffset, key, if_neg (by simp only [keyOffset]; omega)]
    rfl
  · obtain ⟨alpha, _⟩ := reset_alpha_entry j
    rw [readReg_alphaOffset, alpha, if_neg (by simp only [alphaOffset]; omega)]
    rfl

/-- Settles O11: each register, entry and unmapped place reads 0, and PARAMS is read from the policy alone. -/
theorem registersReadZeroAfterReset : Obligations.RegistersReadZeroAfterReset := by
  intro s off hreset hadm
  refine ⟨_, exec_rd off s, ?_⟩
  rw [finish_response, hreset, readReg_reset s.policy hadm, paramsWord_eq]

/-! ### The fields of STATUS -/

theorem statusWord_err (b : Block) : (statusWord b).extractLsb' 4 4 = b.err := by
  apply BitVec.eq_of_getLsbD_eq
  intro i hi
  rw [BitVec.getLsbD_extractLsb', statusWord_getLsbD]
  interval_cases i <;> simp

theorem statusWord_cause (b : Block) : (statusWord b).extractLsb' 8 8 = b.cause := by
  apply BitVec.eq_of_getLsbD_eq
  intro i hi
  rw [BitVec.getLsbD_extractLsb', statusWord_getLsbD]
  interval_cases i <;> simp

theorem statusWord_high (b : Block) : (statusWord b).extractLsb' 16 16 = 0 := by
  apply BitVec.eq_of_getLsbD_eq
  intro i hi
  rw [BitVec.getLsbD_extractLsb', statusWord_getLsbD]
  interval_cases i <;> simp

/-- Settles O13: each bit or field of the word is its register, and each register is 0 after reset. -/
theorem statusWordLayout : Obligations.StatusWordLayout := by
  refine ⟨fun s => ?_, by decide⟩
  rw [reads_status]
  have bit := statusWord_getLsbD s.block
  have ready : readyFlag s.block = decide (s.block.cfgState = .ready) := by
    rw [readyFlag]
    cases s.block.cfgState <;> rfl
  have batch : batchActive s.block = decide (s.block.batchRemaining ≠ 0) := by
    rw [batchActive, bne, decide_not]
    rfl
  exact ⟨(bit 0).trans ready, bit 1, (bit 2).trans batch, bit 3, statusWord_err _, statusWord_cause _, statusWord_high _⟩

/-- STATUS after a command that succeeds: ERR, CAUSE and the rest of the low bits are told, ERR_STICKY stands (R85). -/
theorem statusWord_of_succeeded {a b : Block} (ready : b.cfgState = .ready) (ok : StatusOk b)
    (sticky : b.errSticky = a.errSticky) (batch : b.batchRemaining = a.batchRemaining) :
    statusWord b = statusWord a &&& 0x0000000C ||| (if b.outValid then 0x00000003 else 0x00000001) := by
  obtain ⟨err, cause⟩ := ok
  apply statusWord_eq
  intro i hi
  rw [BitVec.getLsbD_or, BitVec.getLsbD_and, statusWord_getLsbD, statusWord_getLsbD]
  cases b.outValid <;> interval_cases i <;> simp [readyFlag, batchActive, ready, err, cause, sticky, batch]

end Sys2Proof.StatusReads
end

section
/-! The commands in common, and CFG_COMMIT: a write to CMD runs its row, errors are precise, and the commit succeeds exactly
on a sound configuration (40_configuration.md R121, R122, R131, R132). -/

namespace Sys2Proof.CommandEnds
open Sys2Proof.Machine Sys2Proof.Safety Sys2Proof.ConfigCommands Sys2Proof.StatusReads

/-- Settles O20: the row of a word and its write to CMD run the same command, and no command touches an operand. -/
theorem commandWriteRunsItsRow : Obligations.CommandWriteRunsItsRow := by
  intro w s
  exact ⟨_, exec_command rfl s, exec_command (commandOf_cmdRow w) s, rfl, runCommand_port _ s, runCommand_policy _ s,
    commandBody_operands _ (onBlock prologue s)⟩

/-- A command body that does not report an error leaves ERR, CAUSE and ERR_STICKY (R121). -/
theorem commandBody_status (c : Cmd) (s : State) :
    (∃ e x, Reports s c e x ∧ commandBody c s = raiseIn e x s) ∨ SameStatus (commandBody c s).block s.block := by
  rcases commandBody_cases c s with report | ⟨_, h⟩ | ⟨_, h⟩ | ⟨_, _, _, h⟩ | ⟨_, _, _, h⟩ | ⟨_, _, _, _, _, h⟩ |
    ⟨_, _, _, h⟩ | ⟨_, _, _, _, h⟩
  case inl => exact .inl report
  all_goals exact .inr (by simp [h, SameStatus])

/-- Settles O21: a reported error is not OK and only reports; without a report the prologue's OK stands. -/
theorem commandErrorsArePrecise : Obligations.CommandErrorsArePrecise := by
  intro w s t ht
  rw [exec_command rfl] at ht
  cases ht
  rcases commandBody_status (decodeCmd w) (onBlock prologue s) with ⟨e, x, report, h⟩ | ⟨err, cause, sticky⟩
  · simp only [runCommand, h]
    exact ⟨fun _ => ⟨onlyRaised_raise e x s.block, rfl⟩, fun ok => absurd ok report.code_ne⟩
  · rw [runCommand_block]
    exact ⟨fun failed => absurd err failed, fun _ => ⟨cause, sticky⟩⟩

/-- The check of CFG_COMMIT comes after the prologue, which it does not see (R120, R131). -/
theorem commandBody_cfgCommit {s : State} (unconfigured : s.block.cfgState = .unconfigured) :
    commandBody .cfgCommit (onBlock prologue s) =
      if configCheck s.policy s.block ≠ 0 then
        raiseIn .configError (configCheck s.policy s.block) (onBlock prologue s)
      else onBlock (fun b => { b with cfgState := .ready }) (onBlock prologue s) := by
  have notReady : ¬ (onBlock prologue s).block.cfgState = .ready := by simp [unconfigured]
  rw [cfgCommitBody_eq, if_neg notReady]
  rfl

/-- The block after a successful CFG_COMMIT (R131). -/
def committedBlock (b : Block) : Block := { prologue b with cfgState := .ready }

theorem exec_cfgCommit_of_committed {s : State} (unconfigured : s.block.cfgState = .unconfigured) (h : Committed s) :
    exec .cfgCommit s = .next (runWrite committedBlock s) := by
  rw [exec_command (c := .cfgCommit) rfl, runCommand, commandBody_cfgCommit unconfigured,
    if_neg (not_not.mpr ((configCheck_zero_iff s).mpr h))]
  rfl

/-- Settles O27: the check passes, so the body makes the block READY over what the prologue left. -/
theorem commitOfSoundTablesSucceeds : Obligations.CommitOfSoundTablesSucceeds := by
  intro s unconfigured h
  refine ⟨_, exec_cfgCommit_of_committed unconfigured h, Memory.ended_runWrite _ s, rfl, prologue_noResults s.block,
    ⟨rfl, rfl⟩, rfl, ⟨rfl, rfl, rfl, rfl, rfl, rfl⟩, ⟨rfl, rfl, rfl, rfl⟩, ⟨rfl, rfl⟩, ?_⟩
  exact statusWord_of_succeeded (b := committedBlock s.block) rfl ⟨rfl, rfl⟩ rfl rfl

/-- Settles O28: the check fails, so the body reports what it found. -/
theorem commitFailureOnlyReports : Obligations.CommitFailureOnlyReports := by
  intro s unconfigured h
  have failed : configCheck s.policy s.block ≠ 0 := mt (configCheck_zero_iff s).mp h
  obtain ⟨t, ht, ended, raised⟩ := exec_of_report (i := .cfgCommit) (e := .configError) rfl
    ((commandBody_cfgCommit unconfigured).trans (if_pos failed))
  exact ⟨t, ht, ended, raised, failed⟩

end Sys2Proof.CommandEnds
end

section
/-! The step: it runs the decoded instruction, it stops at a reset during an access only, and which steps clear ERR_STICKY
or take a draw (20_memory.md R68; 10_state.md R38; 60_exceptions.md R262, R266). -/

namespace Sys2Proof.StepRules
open Sys2Proof.Machine Sys2Proof.Safety Sys2Proof.Memory Sys2Proof.ResetState Sys2Proof.TableLock
open Sys2Proof.DecodeEncode

/-! ### The step as a whole -/

/-- Settles O6: the step is exec of the decoded instruction, and exec takes the access off the port. -/
theorem stepRunsDecodedInstruction : Obligations.StepRunsDecodedInstruction := by
  intro s a rest i hport hd
  obtain ⟨t, ht, port, policy⟩ := exec_answers i s
  exact ⟨t, (step_of_decode_ok hport hd).trans ht, ht, by rw [port, hport, List.tail_cons], policy⟩

/-- Settles O7, by the event at the head of the port. -/
theorem stepStopsOnlyOnResetDuringAccess : Obligations.StepStopsOnlyOnResetDuringAccess := by
  intro s
  refine ⟨fun hport => ?_, ?_, fun notDuring => ?_, fun rest hport => ?_⟩
  · simp only [step, fetch, hport, idle]
  · rintro ⟨a, rest, hport⟩
    simp only [step, fetch, hport]
  · match hport : s.port with
    | [] => exact ⟨s, by simp only [step, fetch, hport, idle]⟩
    | .access a :: rest =>
      cases hd : decode (.access a) with
      | ok i =>
        obtain ⟨t, ht, _⟩ := exec_answers i s
        exact ⟨t, (step_of_decode_ok hport hd).trans ht⟩
      | error u => exact ⟨_, step_of_decode_error hport hd⟩
    | .reset :: rest => exact ⟨_, step_of_reset hport⟩
    | .resetDuring a :: rest => exact absurd ⟨a, rest, hport⟩ notDuring
  · exact ⟨_, step_of_reset hport, by rw [takeReset_port, hport, List.tail_cons], takeReset_policy s⟩

/-! ### ERR_STICKY -/

/-- No command body clears ERR_STICKY (R38). -/
theorem commandBody_errSticky (c : Cmd) {s : State} (h : s.block.errSticky = true) :
    (commandBody c s).block.errSticky = true := by
  rcases commandBody_cases c s with ⟨_, _, _, hb⟩ | ⟨_, hb⟩ | ⟨_, hb⟩ | ⟨_, _, _, hb⟩ | ⟨_, _, _, hb⟩ |
    ⟨_, _, _, _, _, hb⟩ | ⟨_, _, _, hb⟩ | ⟨_, _, _, _, hb⟩ <;> simp [hb, h]

/-- A table write either reports an error or leaves ERR_STICKY (R127, R129). -/
theorem unlessLocked_errSticky {action : Block → Block} (keeps : ∀ b, (action b).errSticky = b.errSticky) {b : Block}
    (h : b.errSticky = true) : (unlessLocked action b).errSticky = true := by
  unfold unlessLocked
  split
  · rfl
  · rw [keeps, h]

/-- The only instruction that clears ERR_STICKY is the STATUS write with bit 3 set (R38, R235). -/
theorem wrStatus_of_errSticky_cleared {i : Instr} {s t : State} (ht : exec i s = .next t)
    (before : s.block.errSticky = true) (after : t.block.errSticky = false) :
    ∃ v, i = .wrStatus v ∧ v.getLsbD 3 = true := by
  have contra (h : t.block.errSticky = true) : False := by simp [h] at after
  cases hc : commandOf i with
  | some c =>
    rw [exec_command hc] at ht
    cases ht
    exact (contra (commandBody_errSticky c (s := onBlock prologue s) before)).elim
  | none =>
    cases i <;> simp only [commandOf, reduceCtorEq] at hc
    case wrKey r c v => cases ht; exact (contra (unlessLocked_errSticky (storeKey_errSticky r c v) before)).elim
    case wrAlpha j v => cases ht; exact (contra (unlessLocked_errSticky (storeAlpha_errSticky j v) before)).elim
    case wrStatus v =>
      rw [exec_wrStatus] at ht
      cases ht
      exact ⟨v, rfl, by simpa [before] using after⟩
    all_goals cases ht; exact (contra before).elim

/-- Settles O52: of the steps only an instruction or a reset touches the flag, and the STATUS write has one access. -/
theorem stickyClearedOnlyByWriteOrReset : Obligations.StickyClearedOnlyByWriteOrReset := by
  intro s t hstep before after
  rcases step_cases hstep with ⟨_, rfl⟩ | ⟨a, rest, i, hport, hd, hexec⟩ | ⟨_, _, _, _, _, rfl⟩ | ⟨rest, hport, _⟩
  · simp [before] at after
  · obtain ⟨v, rfl, hv⟩ := wrStatus_of_errSticky_cleared hexec before after
    obtain ⟨_, henc⟩ := encode_of_decode hd
    cases henc
    exact .inr ⟨v, by rw [hport, List.head?_cons], hv⟩
  · simp [before] at after
  · exact .inl (by rw [hport, List.head?_cons])

/-! ### Draws -/

/-- The command draws on this block: an unforced GENERATE or BATCH_NEXT that has passed its checks (R266). -/
def Draws (c : Cmd) (b : Block) : Prop :=
  b.cfgState = .ready ∧ (c = .generate .random ∨ c = .batchNext .random ∧ b.batchRemaining ≠ 0)

/-- A command body takes one draw when it draws, and none otherwise (R159, R266). -/
theorem commandBody_draws (c : Cmd) (s : State) :
    (Draws c s.block ∧ (commandBody c s).draws = s.draws + 1) ∨
      (¬ Draws c s.block ∧ (commandBody c s).draws = s.draws) := by
  rcases commandBody_cases c s with ⟨e, x, report, hb⟩ | ⟨rfl, hb⟩ | ⟨rfl, hb⟩ | ⟨rfl, _, _, hb⟩ | ⟨sel, rfl, ready, hb⟩ |
    ⟨_, _, rfl, _, _, hb⟩ | ⟨rfl, _, _, hb⟩ | ⟨sel, rfl, ready, more, hb⟩
  · refine .inr ⟨?_, by rw [hb]; rfl⟩
    rintro ⟨ready, rfl | ⟨rfl, more⟩⟩
    · cases report with
      | notConfigured _ unconfigured _ => rw [ready] at unconfigured; cases unconfigured
    · cases report with
      | notConfigured _ unconfigured _ => rw [ready] at unconfigured; cases unconfigured
      | empty _ _ empty => exact more empty
  all_goals rw [hb]
  case inr.inr.inr.inr.inl =>
    rw [onBlock_draws, freshSel_draws]
    cases sel <;> simp [Draws, ready]
  case inr.inr.inr.inr.inr.inr.inr =>
    rw [onBlock_draws, freshSel_draws]
    cases sel <;> simp [Draws, ready, show ¬ s.block.batchRemaining = 0#32 from more]
  all_goals exact .inr ⟨by simp [Draws], rfl⟩

/-- A command word is the only one of its row when the row has no operand (R82). -/
theorem eq_of_cmdRow {w u : Word} {i : Instr} (hrow : cmdRow w = i) (hu : encode i = .cmd u) : w = u := by
  obtain ⟨_, hw⟩ := row_of_word w
  rw [hrow, hu] at hw
  exact (Encoded.cmd.inj hw).symm

theorem decodeCmd_gen_iff (w : Word) : decodeCmd w = .generate .random ↔ w = 0x00000003 :=
  ⟨fun h => eq_of_cmdRow (i := .gen) (by rw [cmdRow, h]) rfl, fun h => h ▸ by decide⟩

theorem decodeCmd_batchNext_iff (w : Word) : decodeCmd w = .batchNext .random ↔ w = 0x00000006 :=
  ⟨fun h => eq_of_cmdRow (i := .batchNext) (by rw [cmdRow, h]) rfl, fun h => h ▸ by decide⟩

/-- The access at the head of the port is the write of a command that draws. -/
def NextDraws (s : State) : Prop :=
  ∃ w, s.port.head? = some (.access (.write 0x000 4 w)) ∧ Draws (decodeCmd w) s.block

/-- The writes that draw, by their words (R266). -/
theorem nextDraws_iff (s : State) :
    NextDraws s ↔ s.block.cfgState = .ready ∧
      (s.port.head? = some (.access (.write 0x000 4 0x00000003)) ∨
        (s.port.head? = some (.access (.write 0x000 4 0x00000006)) ∧ s.block.batchRemaining ≠ 0)) := by
  simp only [NextDraws, Draws, decodeCmd_gen_iff, decodeCmd_batchNext_iff]
  constructor
  · rintro ⟨w, head, ready, rfl | ⟨rfl, more⟩⟩
    · exact ⟨ready, .inl head⟩
    · exact ⟨ready, .inr ⟨head, more⟩⟩
  · rintro ⟨ready, head | ⟨head, more⟩⟩
    · exact ⟨_, head, ready, .inl rfl⟩
    · exact ⟨_, head, ready, .inr ⟨rfl, more⟩⟩

/-- An instruction that is no command takes no draw. -/
theorem draws_of_commandOf_none {i : Instr} {s t : State} (hc : commandOf i = none) (ht : exec i s = .next t) :
    t.draws = s.draws := by
  rcases exec_cases i s with ⟨c, hc', _⟩ | ⟨_, _, h⟩ | ⟨_, _, h⟩
  · rw [hc] at hc'; cases hc'
  · rw [h] at ht; cases ht; rfl
  · rw [h] at ht; cases ht; rfl

/-- A step takes one draw when the access at the head of the port draws, and none otherwise (R266). -/
theorem step_draws {s t : State} (hstep : step s = .next t) :
    (NextDraws s ∧ t.draws = s.draws + 1) ∨ (¬ NextDraws s ∧ t.draws = s.draws) := by
  rcases step_cases hstep with ⟨hport, rfl⟩ | ⟨a, rest, i, hport, hd, hexec⟩ | ⟨a, rest, u, hport, hd, rfl⟩ |
    ⟨rest, hport, rfl⟩
  · exact .inr ⟨by simp [NextDraws, hport], rfl⟩
  · cases hc : commandOf i with
    | some c =>
      obtain ⟨w, rfl, rfl⟩ := access_of_decode_command hd hc
      have next : NextDraws s ↔ Draws (decodeCmd w) s.block := by simp [NextDraws, hport]
      rw [exec_command hc] at hexec
      cases hexec
      rw [next, runCommand_draws]
      exact commandBody_draws (decodeCmd w) (onBlock prologue s)
    | none =>
      refine .inr ⟨?_, draws_of_commandOf_none hc hexec⟩
      rintro ⟨w, head, _⟩
      rw [hport] at head
      cases head
      cases hd
      cases hc
  · refine .inr ⟨?_, rfl⟩
    rintro ⟨w, head, _⟩
    rw [hport] at head
    cases head
    cases hd
  · exact .inr ⟨by simp [NextDraws, hport], rfl⟩

/-- Settles O53: only the write of a command draws, and its word tells which. -/
theorem drawsAreTakenOnlyByUnforcedCommands : Obligations.DrawsAreTakenOnlyByUnforcedCommands := by
  intro s t hstep
  rw [← nextDraws_iff]
  rcases step_draws hstep with ⟨next, draws⟩ | ⟨notNext, draws⟩
  · exact ⟨.inr draws, fun _ => next, fun _ => draws⟩
  · exact ⟨.inl draws, fun drawn => by omega, fun next => absurd next notNext⟩

end Sys2Proof.StepRules
end

section
/-! Table writes while UNCONFIGURED: the entry and its valid bit are stored, a value out of range is recorded, and no other
register reads differently (40_configuration.md R127, R129). -/

namespace Sys2Proof.TableWrites
open Sys2Proof.Machine Sys2Proof.Safety Sys2Proof.Memory Sys2Proof.DecodeEncode

/-! ### The stored value and the range -/

/-- The low half of a bus word, zero-extended. -/
theorem setWidth_low_half (v : Word) : (v.extractLsb' 0 16).setWidth 32 = v &&& 0x0000FFFF := by
  apply BitVec.eq_of_toNat_eq
  rw [BitVec.toNat_setWidth, toNat_field, BitVec.toNat_and,
    show (0x0000FFFF : Word).toNat = 2 ^ 16 - 1 from rfl, Nat.and_two_pow_sub_one_eq_mod]
  omega

/-- The low byte of a bus word, zero-extended. -/
theorem setWidth_low_byte (v : Word) : (v.extractLsb' 0 8).setWidth 32 = v &&& 0x000000FF := by
  apply BitVec.eq_of_toNat_eq
  rw [BitVec.toNat_setWidth, toNat_field, BitVec.toNat_and,
    show (0x000000FF : Word).toNat = 2 ^ 8 - 1 from rfl, Nat.and_two_pow_sub_one_eq_mod]
  omega

/-- The bits of a word above the lowest `k` are not all zero exactly when it is `2 ^ k` or more. -/
theorem high_bits_ne_zero {k len : Nat} (v : Word) (h : k + len = 32) :
    (v.extractLsb' k len != 0) = decide (2 ^ k ≤ v.toNat) := by
  have lt : v.toNat / 2 ^ k < 2 ^ len := by
    rw [Nat.div_lt_iff_lt_mul (Nat.two_pow_pos k), ← pow_add, Nat.add_comm len, h]
    exact v.isLt
  have toNat : (v.extractLsb' k len).toNat = v.toNat / 2 ^ k := by rw [toNat_field, Nat.mod_eq_of_lt lt]
  rw [bne, Bool.not_eq_eq_eq_not, ← decide_not, Bool.beq_eq_decide_eq, decide_eq_decide, ← BitVec.toNat_inj, toNat,
    not_le]
  exact Nat.div_eq_zero_iff_lt (Nat.two_pow_pos k)

/-- While UNCONFIGURED a table write is its store (R127, R129). -/
theorem runWrite_unlessLocked (action : Block → Block) {s : State} (h : s.block.cfgState = .unconfigured) :
    runWrite (unlessLocked action) s = runWrite action s := by
  rw [runWrite, runWrite, onBlock, onBlock, unlessLocked_unconfigured action h]

/-! ### KEY writes -/

/-- A stored KEY entry shows at its own offset only (R127). -/
theorem readReg_storeKey (p : SigOvfPolicy) (r : Fin 16) (c : Fin 8) (v : Word) (b : Block) {o : Nat}
    (h : admitted o 4 = true) :
    readReg p (storeKey r c v b) o = if o = keyOffset r c then v &&& 0x0000FFFF else readReg p b o := by
  split
  case isTrue ho =>
    rw [ho, readReg_keyOffset, storeKey_key, setEntry_get, if_pos ⟨rfl, rfl⟩, setWidth_low_half]
  case isFalse ho =>
    obtain ⟨_, aligned, _⟩ := (admitted_iff o 4).mp h
    have key (hk : inKeyWindow o) : ((storeKey r c v b).key[keyRowOf o hk])[keyColOf o]
        = (b.key[keyRowOf o hk])[keyColOf o] := by
      rw [storeKey_key, setEntry_get, if_neg]
      rintro ⟨hr, hc⟩
      exact ho (by rw [← hr, ← hc, keyOffset_keyRowOf hk aligned])
    apply readReg_congr (key := key) <;> intros <;> rfl

/-- Settles O17: the store shows at the entry's offset, among the valid bits in the entry's, and in the range flag. -/
theorem keyWriteStoresEntry : Obligations.KeyWriteStoresEntry := by
  intro r c v s unconfigured
  refine ⟨runWrite (storeKey r c v) s, by rw [exec_wrKey, runWrite_unlessLocked _ unconfigured], ended_runWrite _ s,
    fun o h => readReg_storeKey s.policy r c v s.block h, fun r' c' => ?_, ?_, rfl, rfl⟩
  · rw [runWrite_block, storeKey_keyValid, setEntry_get]
    split
    next h => rw [decide_eq_true h, Bool.true_or]
    next h => rw [decide_eq_false h, Bool.false_or]
  · rw [runWrite_block, storeKey_keyRangeErr, high_bits_ne_zero v rfl]

/-! ### ALPHA writes -/

/-- Reading a row of registers after setting one. -/
theorem set_get {α : Type} {n : Nat} (t : Vector α n) (j j' : Fin n) (x : α) :
    (t.set j.val x)[j'] = if j' = j then x else t[j'] := by
  rw [Fin.getElem_fin, Vector.getElem_set]
  exact if_congr (by rw [← Fin.ext_iff, eq_comm]) rfl rfl

/-- A stored ALPHA symbol shows at its own offset only (R129). -/
theorem readReg_storeAlpha (p : SigOvfPolicy) (j : Fin 32) (v : Word) (b : Block) {o : Nat}
    (h : admitted o 4 = true) :
    readReg p (storeAlpha j v b) o = if o = alphaOffset j then v &&& 0x000000FF else readReg p b o := by
  split
  case isTrue ho =>
    rw [ho, readReg_alphaOffset, storeAlpha_alpha, set_get, if_pos rfl, setWidth_low_byte]
  case isFalse ho =>
    obtain ⟨_, aligned, _⟩ := (admitted_iff o 4).mp h
    have alpha (ha : inAlphaWindow o) : (storeAlpha j v b).alpha[alphaIndexOf o ha] = b.alpha[alphaIndexOf o ha] := by
      rw [storeAlpha_alpha, set_get, if_neg]
      intro hj
      exact ho (by rw [← hj, alphaOffset_alphaIndexOf ha aligned])
    apply readReg_congr (alpha := alpha) <;> intros <;> rfl

/-- Settles O18: the store shows at the symbol's offset, among the valid bits in the symbol's, and in the range flag. -/
theorem alphaWriteStoresSymbol : Obligations.AlphaWriteStoresSymbol := by
  intro j v s unconfigured
  refine ⟨runWrite (storeAlpha j v) s, by rw [exec_wrAlpha, runWrite_unlessLocked _ unconfigured], ended_runWrite _ s,
    fun o h => readReg_storeAlpha s.policy j v s.block h, fun j' => ?_, ?_, rfl, rfl⟩
  · rw [runWrite_block, storeAlpha_alphaValid, set_get]
    split
    next h => rw [decide_eq_true h, Bool.true_or]
    next h => rw [decide_eq_false h, Bool.false_or]
  · rw [runWrite_block, storeAlpha_alphaRangeErr, high_bits_ne_zero v rfl]

end Sys2Proof.TableWrites
end

section
/-! GENERATE and the batch commands while READY: the code they show, the draw they take and the batch they leave; and the
code function is injective under distinct symbols (41_generate.md R154, R158, R159, R163; 42_batch.md R180 to R182). -/

namespace Sys2Proof.CodeCommands
open Sys2Proof.Machine Sys2Proof.Safety Sys2Proof.GenerateDatapath Sys2Proof.GenerateCommand Sys2Proof.BatchRuns
open Sys2Proof.ConfigCommands Sys2Proof.StatusReads

/-! ### The code function -/

/-- Settles O31: M(f) is a word, and its number is the one of the statement. -/
theorem permuterXorsRowMask : Obligations.PermuterXorsRowMask := toNat_obf

/-- The fields of a packed payload determine it, and are determined by it (R155). -/
theorem pack_inj {s s' : Sig} {f f' : Nibble} {o o' : Word} (h : pack s f o = pack s' f' o') : f = f' ∧ o = o' :=
  ⟨by rw [← freshBits_pack s f o, h, freshBits_pack], by rw [← obfBits_pack s f o, h, obfBits_pack]⟩

/-- Settles O34: the symbols give back the payload, whose fields give the freshness and, through the involution, the
identifier. -/
theorem generatedCodesAreInjective : Obligations.GeneratedCodesAreInjective := by
  intro key alpha id id' f f' inj h
  have payload := congrArg (payloadOf alpha) h
  rw [genCode, genCode, payloadOf_encodeSymbols inj, payloadOf_encodeSymbols inj] at payload
  obtain ⟨rfl, obf⟩ := pack_inj payload
  exact ⟨(obf_involutive key f).injective obf, rfl⟩

/-! ### What a command that shows a code leaves -/

/-- The code of an identifier, shown over the prologue's block (R158). -/
theorem emitted_emitCode (id : Word) (f : Nibble) (b : Block) : Emitted id f b (emitCode id f (prologue b)) := by
  obtain ⟨carries, _⟩ := generatedCodeCarriesPayload b.key b.alpha id f
  exact ⟨carries, rfl, rfl, rfl, ⟨rfl, rfl⟩, rfl, rfl, ⟨rfl, rfl, rfl, rfl, rfl, rfl⟩, ⟨rfl, rfl, rfl, rfl⟩⟩

/-- How a command with freshness selection `sel` ends when its checks pass: one draw when `sel` is random (R159, R266). -/
abbrev EndedSelecting (sel : FreshSel) (s t : State) : Prop :=
  t.response = .done ∧ t.port = s.port.tail ∧ t.policy = s.policy ∧ t.draws = s.draws + if sel = .random then 1 else 0

/-- The end of a command whose body writes the block after its selection (R158, R181). -/
theorem endedSelecting_of_body {c : Cmd} {sel : FreshSel} {s : State} {write : Block → Block}
    (h : commandBody c (onBlock prologue s) = onBlock write (freshSel sel (onBlock prologue s)).2) :
    EndedSelecting sel s (runCommand (commandBody c) s) := by
  refine ⟨rfl, runCommand_port c s, runCommand_policy c s, ?_⟩
  rw [runCommand_draws, h, onBlock_draws, freshSel_draws, onBlock_draws]

/-! ### GENERATE -/

/-- GENERATE while READY, forced or not (R158). -/
theorem exec_generate {i : Instr} {sel : FreshSel} {s : State} (hi : commandOf i = some (.generate sel))
    (ready : s.block.cfgState = .ready) :
    ∃ t, exec i s = .next t ∧ EndedSelecting sel s t ∧
      Emitted s.block.idIn (freshSel sel s).1 s.block t.block ∧ SameBatch t.block s.block ∧
      reads t 0x004 = (reads s 0x004 &&& 0x0000000C ||| 0x00000003) := by
  have ht := exec_command hi s
  have block := generate_block hi ready ht
  refine ⟨_, ht, endedSelecting_of_body ((generateBody_eq sel _).trans (if_pos ready)), ?_⟩
  rw [reads_status, reads_status, block]
  exact ⟨emitted_emitCode _ _ s.block, ⟨rfl, rfl⟩, statusWord_of_succeeded ready ⟨rfl, rfl⟩ rfl rfl⟩

/-- Settles O35: the two rows are GENERATE with a forced and with a random selection. -/
theorem generateWritesCodeOfIdIn : Obligations.GenerateWritesCodeOfIdIn :=
  fun _ ready => ⟨fun f => exec_generate (i := .genF f) rfl ready, exec_generate (i := .gen) rfl ready⟩

/-! ### BATCH_START -/

theorem not_batchOverflows {b : Block} (h : b.countIn = 0 ∨ b.idIn.toNat + b.countIn.toNat ≤ 2 ^ 32) :
    ¬ batchOverflows b := by
  rintro ⟨nonempty, beyond⟩
  have fits := h.resolve_left nonempty
  have positive : b.countIn.toNat ≠ 0 := fun h0 => nonempty (BitVec.eq_of_toNat_eq h0)
  simp only [Config.maxIdentifier] at beyond
  omega

/-- BATCH_START while READY of a range within 32 bits is the prologue and the load (R180). -/
theorem exec_batchStart_of_fits {s : State} (ready : s.block.cfgState = .ready) (fits : ¬ batchOverflows s.block) :
    exec .batchStart s = .next (runWrite (fun b => loadBatch (prologue b)) s) := by
  have ready' : (onBlock prologue s).block.cfgState = .ready := ready
  have fits' : ¬ batchOverflows (onBlock prologue s).block := fits
  rw [exec_command (c := .batchStart) rfl, runCommand, batchStartBody_eq, if_pos ready', if_neg fits']
  rfl

/-- Settles O38: the load over the prologue's block. -/
theorem batchStartLoadsRange : Obligations.BatchStartLoadsRange := by
  intro s ready fits
  exact ⟨_, exec_batchStart_of_fits ready (not_batchOverflows fits), Memory.ended_runWrite _ s, rfl, rfl,
    prologue_noResults s.block, ⟨rfl, rfl⟩, rfl, ready, ⟨rfl, rfl, rfl, rfl, rfl, rfl⟩, ⟨rfl, rfl, rfl, rfl⟩⟩

/-! ### BATCH_NEXT -/

/-- BATCH_NEXT while READY with codes to come, forced or not (R181). -/
theorem exec_batchNext {i : Instr} {sel : FreshSel} {s : State} (hi : commandOf i = some (.batchNext sel))
    (ready : s.block.cfgState = .ready) (more : s.block.batchRemaining ≠ 0) :
    ∃ t, exec i s = .next t ∧ EndedSelecting sel s t ∧
      Emitted s.block.batchNextId (freshSel sel s).1 s.block t.block ∧
      t.block.batchNextId.toNat = (s.block.batchNextId.toNat + 1) % 2 ^ 32 ∧
      t.block.batchRemaining.toNat + 1 = s.block.batchRemaining.toNat := by
  have ht := exec_command hi s
  have block := batchNext_block hi ready more ht
  refine ⟨_, ht, endedSelecting_of_body ((batchNextBody_eq sel _).trans ((if_pos ready).trans (if_neg more))), ?_⟩
  rw [block]
  exact ⟨emitted_emitCode _ _ s.block, BitVec.toNat_add _ _, toNat_sub_one more⟩

/-- Settles O40: the two rows are BATCH_NEXT with a forced and with a random selection. -/
theorem batchNextEmitsAndAdvances : Obligations.BatchNextEmitsAndAdvances :=
  fun _ ready more =>
    ⟨fun f => exec_batchNext (i := .batchNextF f) rfl ready more, exec_batchNext (i := .batchNext) rfl ready more⟩

/-! ### The other instructions -/

/-- A table write leaves the batch registers, whether it stores or reports (R127, R129). -/
theorem unlessLocked_sameBatch {action : Block → Block} (keeps : ∀ b, SameBatch (action b) b) (b : Block) :
    SameBatch (unlessLocked action b) b := by
  unfold unlessLocked
  split
  · exact ⟨rfl, rfl⟩
  · exact keeps b

/-- An instruction that is no command leaves the batch registers (R182). -/
theorem sameBatch_of_commandOf_none {i : Instr} {s t : State} (hc : commandOf i = none) (ht : exec i s = .next t) :
    SameBatch t.block s.block := by
  cases i <;> simp only [commandOf, reduceCtorEq] at hc
  case wrKey r c v => cases ht; exact unlessLocked_sameBatch (action := storeKey r c v) (fun _ => ⟨rfl, rfl⟩) s.block
  case wrAlpha j v => cases ht; exact unlessLocked_sameBatch (action := storeAlpha j v) (fun _ => ⟨rfl, rfl⟩) s.block
  case wrStatus v => cases ht; exact ⟨clearSticky_batchNextId v s.block, clearSticky_batchRemaining v s.block⟩
  all_goals cases ht; exact ⟨rfl, rfl⟩

/-- Settles O42: of the commands only three write the batch registers, and the other instructions do not. -/
theorem batchRegistersChangeOnlyByBatchCommands : Obligations.BatchRegistersChangeOnlyByBatchCommands := by
  intro i s t ht keeps notNext
  cases hc : commandOf i with
  | none => exact sameBatch_of_commandOf_none hc ht
  | some c =>
    obtain ⟨hstart, hclear⟩ := keepsBatch_iff.mp keeps
    rw [exec_command hc] at ht
    cases ht
    refine commandBody_sameBatch ?_ ?_ ?_ (onBlock prologue s)
    · rintro rfl; exact hclear hc
    · rintro rfl; exact hstart hc
    · rintro sel rfl
      rw [runsBatchNext_iff.mpr ⟨sel, hc⟩] at notNext
      cases notNext

end Sys2Proof.CodeCommands
end

section
/-! PARSE: what it shows of a code that passes, the round trip through the registers, and which changes of a symbol it
detects (43_parse.md R201 to R207; 30_encoding.md R97). -/

namespace Sys2Proof.ParseCommand
open Sys2Proof.Machine Sys2Proof.Safety Sys2Proof.Memory Sys2Proof.GenerateDatapath Sys2Proof.GenerateCommand
open Sys2Proof.BatchRuns Sys2Proof.ParseFunction Sys2Proof.ErrorReports Sys2Proof.ConfigCommands Sys2Proof.StatusReads

/-! ### A code that passes -/

/-- The block after a PARSE that succeeds (R205). -/
def parsedBlock (id : Word) (f : Nibble) (b : Block) : Block := writeParsed id f (prologue b)

/-- PARSE while READY shows what the parse function answers (R205). -/
theorem exec_parse_of_ok {s : State} {id : Word} {f : Nibble} (ready : s.block.cfgState = .ready)
    (h : parseCode s.block.key s.block.alpha s.block.codeInLen s.block.codeIn = .ok (id, f)) :
    exec .parse s = .next (runWrite (parsedBlock id f) s) := by
  have ready' : (onBlock prologue s).block.cfgState = .ready := ready
  rw [exec_command (c := .parse) rfl, runCommand, parseBody_eq, if_pos ready']
  simp only [onBlock_block, prologue_key, prologue_alpha, prologue_codeInLen, prologue_codeIn, h]
  rfl

/-- Settles O44: the symbols are known and the signature passes, and the fields are the numbers of the statement. -/
theorem parseShowsRecoveredIdentifier : Obligations.ParseShowsRecoveredIdentifier := by
  intro s idx ready length inj symbols holds
  have passes : signaturePasses s.block.key (unpack idx) = true := by
    rwa [signaturePasses_iff, toNat_unpack_eq_unpackNat]
  have parses : parseCode s.block.key s.block.alpha s.block.codeInLen s.block.codeIn =
      .ok (recoveredId s.block.key (unpack idx), freshBits (unpack idx)) := by
    rw [length, parseCode_of_symbolsAre _ inj symbols, parsePayload_eq, if_pos passes]
  obtain ⟨_, _, noCode, _⟩ := prologue_noResults s.block
  refine ⟨_, exec_parse_of_ok ready parses, ended_runWrite _ s, ?_, ?_, rfl, noCode,
    ⟨rfl, rfl⟩, rfl, ready, ⟨rfl, rfl, rfl, rfl, rfl, rfl⟩, ⟨rfl, rfl, rfl, rfl⟩, ⟨rfl, rfl⟩, ?_⟩
  · rw [← toNat_unpack_eq_unpackNat]
    exact toNat_recoveredId _ _
  · rw [← toNat_unpack_eq_unpackNat]
    exact freshBits_eq_freshOfNat _
  · exact statusWord_of_succeeded (b := parsedBlock _ _ s.block) ready ⟨rfl, rfl⟩ rfl rfl

/-! ### CODE_IN, word by word -/

/-- The three words of a code, written one after the other, are that code (R91, R234). -/
theorem setCodeWords (str code : Symbols) :
    setCodeWord (setCodeWord (setCodeWord str 0 (codeWord code 0)) 1 (codeWord code 1)) 2 (codeWord code 2) = code := by
  refine Vector.ext fun k hk => ?_
  interval_cases k <;> simp [setCodeWord, codeWord]

/-- The writes of a code to CODE_IN, and of its length (R97). -/
def codeWrites (code : Symbols) : List Instr :=
  [.wrCodeIn0 (codeWord code 0), .wrCodeIn1 (codeWord code 1), .wrCodeIn2 (codeWord code 2), .wrCodeInLen 10]

/-- They put the code in CODE_IN and 10 in CODE_IN_LEN, and touch nothing else (R234). -/
theorem execAll_codeWrites (code : Symbols) (s : State) :
    ∃ t, execAll (codeWrites code) s = some t ∧ t.block = { s.block with codeIn := code, codeInLen := 10 } := by
  refine ⟨_, rfl, ?_⟩
  simp only [runWrite_block, storeCodeIn, setCodeWords]

theorem firstSymbols_toList (str : Symbols) : firstSymbols str.toList = str := by
  refine Vector.ext fun k hk => ?_
  simp [firstSymbols]

/-- Settles O57: LOADCODE of 10 symbols is those writes. -/
theorem loadCodeFillsCodeIn : Obligations.LoadCodeFillsCodeIn := by
  intro s str
  have writes : loadCode str.toList = codeWrites str := by
    rw [loadCode, firstSymbols_toList, Vector.length_toList]
    rfl
  rw [writes]
  exact execAll_codeWrites str s

/-! ### The round trip through the registers -/

theorem execAll_concat {is : List Instr} {i : Instr} {s t u : State} (h : execAll is s = some t)
    (hi : exec i t = .next u) : execAll (is ++ [i]) s = some u := by
  rw [execAll_append is [i] s t h]
  simp only [execAll, hi]

/-- Settles O48: the copied words are the generated code, and the parse function inverts it exactly when the sum fits. -/
theorem generateThenParseOnTheBus : Obligations.GenerateThenParseOnTheBus := by
  intro s t f inv ready ht
  have block := generate_block (sel := .forced f) rfl ready ht
  have code : t.block.codeOut = genCode s.block.key s.block.alpha s.block.idIn f := by simp [block]
  obtain ⟨u, hu, loaded⟩ := execAll_codeWrites t.block.codeOut t
  have ready_u : u.block.cfgState = .ready := by simp [loaded, block, ready]
  have parse : parseCode u.block.key u.block.alpha u.block.codeInLen u.block.codeIn =
      if sigSum s.block.key f s.block.idIn ≤ 16383 then .ok (s.block.idIn, f) else .error (.signatureMismatch, 0) := by
    have inverts := (parseInvertsGenerate s.block.key s.block.alpha s.block.idIn f (inv.committed ready).injective).1
    rw [← inverts]
    simp [loaded, block]
  by_cases fits : sigSum s.block.key f s.block.idIn ≤ 16383
  · rw [if_pos fits] at parse
    refine ⟨_, execAll_concat hu (exec_parse_of_ok ready_u parse), fun _ => ⟨rfl, rfl, rfl⟩, fun overflow => ?_⟩
    omega
  · rw [if_neg fits] at parse
    obtain ⟨v, hv, _, ⟨idOut, _, _, outValid⟩, ⟨err, _⟩, _⟩ := exec_parse_of_error ready_u parse
    exact ⟨v, execAll_concat hu hv, fun fits' => absurd fits' fits, fun _ => ⟨idOut, err, outValid⟩⟩

/-! ### Changed symbols -/

/-- The symbols of a code that parses, by their indices, and what its payload's checks have answered (R204). -/
theorem symbolsAre_of_parseCode_ok {key : KeyTable} {alpha : Alphabet} {str : Symbols} {r : Word × Nibble}
    (h : parseCode key alpha 10 str = .ok r) : ∃ idx, SymbolsAre alpha str idx := by
  have known : firstUnknown alpha str = none := by
    cases hu : firstUnknown alpha str with
    | none => rfl
    | some k => rw [parseCode_unknown key hu] at h; cases h
  choose j hj using (firstUnknown_eq_none_iff alpha str).mp known
  refine ⟨fun k => BitVec.ofNat 5 (j k).val, fun k => ?_⟩
  simp only [positionOf_ofNat, hj]

/-- A payload's checks answer `(id, f)` exactly when the signature passes and these are its fields (R204). -/
theorem parsePayload_eq_ok_iff (key : KeyTable) (p : Payload) (id : Word) (f : Nibble) :
    parsePayload key p = .ok (id, f) ↔ signaturePasses key p = true ∧ recoveredId key p = id ∧ freshBits p = f := by
  rw [parsePayload_eq]
  split_ifs with passes <;> simp [passes]

/-- A code with one symbol replaced has that symbol's index replaced. -/
theorem symbolsAre_set {alpha : Alphabet} {str : Symbols} {idx : Fin 10 → SymIndex} (h : SymbolsAre alpha str idx)
    (k : Fin 10) (x : SymIndex) :
    SymbolsAre alpha (str.set k.val alpha[positionOf x]) (Function.update idx k x) := by
  intro j
  rw [TableWrites.set_get]
  split
  case isTrue hj => simp only [hj, Function.update_self]
  case isFalse hj => simp only [Function.update_of_ne hj, h j]

/-- Symbols 2 to 9 hold the freshness and the obfuscated identifier (R93). -/
theorem low_fields_of_symbols {idx idx' : Fin 10 → SymIndex} (h : ∀ j : Fin 10, 2 ≤ j.val → idx j = idx' j) :
    freshBits (unpack idx) = freshBits (unpack idx') ∧ obfBits (unpack idx) = obfBits (unpack idx') := by
  have low : (unpack idx).toNat % 2 ^ 40 = (unpack idx').toNat % 2 ^ 40 := by
    rw [toNat_unpack, toNat_unpack, h 2 (by decide), h 3 (by decide), h 4 (by decide), h 5 (by decide),
      h 6 (by decide), h 7 (by decide), h 8 (by decide), h 9 (by decide)]
    omega
  constructor <;> apply BitVec.eq_of_toNat_eq
  · rw [freshBits, freshBits, toNat_field, toNat_field]
    omega
  · rw [obfBits, obfBits, toNat_field, toNat_field]
    omega

/-- Two payloads that agree but for the signature field cannot both pass (R203). -/
theorem eq_of_signaturePasses {key : KeyTable} {p q : Payload} (fresh : freshBits p = freshBits q)
    (obf : obfBits p = obfBits q) (hp : signaturePasses key p = true) (hq : signaturePasses key q = true) : p = q := by
  rw [signaturePasses, beq_iff_eq] at hp hq
  have recovered : recoveredId key p = recoveredId key q := by rw [recoveredId, recoveredId, fresh, obf]
  have sig : sigBits p = sigBits q := by
    apply BitVec.eq_of_toNat_eq
    rw [← hp, ← hq, fresh, recovered]
  rw [← pack_fields p, ← pack_fields q, sig, fresh, obf]

/-- Settles O49: the replaced symbol leaves the low fields, and the same signature field would give the same symbol. -/
theorem signatureSymbolChangesAreDetected : Obligations.SignatureSymbolChangesAreDetected := by
  intro key alpha str id f k x inj h hk changed
  obtain ⟨idx, symbols⟩ := symbolsAre_of_parseCode_ok h
  rw [parseCode_of_symbolsAre key inj symbols, parsePayload_eq_ok_iff] at h
  obtain ⟨passes, _, _⟩ := h
  obtain ⟨fresh, obf⟩ := low_fields_of_symbols (idx := idx) (idx' := Function.update idx k x) fun j hj => by
    rw [Function.update_of_ne (by rintro rfl; omega)]
  have fails : ¬ signaturePasses key (unpack (Function.update idx k x)) = true := by
    intro passes'
    have same := congrArg (symIdx · k) (eq_of_signaturePasses fresh obf passes passes')
    simp only [symIdx_unpack, Function.update_self] at same
    subst same
    exact changed (symbols k).symm
  rw [parseCode_of_symbolsAre key inj (symbolsAre_set symbols k x), parsePayload_eq, if_neg fails]

/-- The lowest bit of symbol 2 is FRESH[3]: flipped, it leaves the signature and the obfuscated identifier (R93). -/
theorem unpack_flip_fresh (idx : Fin 10 → SymIndex) :
    unpack (Function.update idx 2 (idx 2 ^^^ 1)) =
      pack (sigBits (unpack idx)) (freshBits (unpack idx) ^^^ 8) (obfBits (unpack idx)) := by
  have index : ∀ x : SymIndex, (x ^^^ 1).toNat = x.toNat + 1 - 2 * (x.toNat % 2) := by decide
  have fresh : ∀ f : Nibble, (f ^^^ 8).toNat = f.toNat + 8 - 16 * (f.toNat / 8) := by decide
  apply BitVec.eq_of_toNat_eq
  rw [toNat_pack, fresh, sigBits, freshBits, obfBits, toNat_field, toNat_field, toNat_field, toNat_unpack,
    toNat_unpack]
  simp only [Function.update_self, index, Function.update_apply, Fin.isValue, Fin.reduceEq, if_false]
  have h0 := (idx 0).isLt; have h1 := (idx 1).isLt; have h2 := (idx 2).isLt; have h3 := (idx 3).isLt
  have h4 := (idx 4).isLt; have h5 := (idx 5).isLt; have h6 := (idx 6).isLt; have h7 := (idx 7).isLt
  have h8 := (idx 8).isLt; have h9 := (idx 9).isLt
  omega

theorem obf_of_row_eq {key : KeyTable} {f g : Nibble} (h : key[rowOf f] = key[rowOf g]) : obf key f = obf key g := by
  funext x
  simp only [obf, mask, h]

theorem sigSum_of_row_eq {key : KeyTable} {f g : Nibble} (h : key[rowOf f] = key[rowOf g]) :
    sigSum key f = sigSum key g := by
  funext x
  rw [sigSum, sigSum, h]

/-- Settles O50: the flipped payload differs in the freshness alone, and equal rows recover and check the same. -/
theorem equalRowsHideFreshnessChange : Obligations.EqualRowsHideFreshnessChange := by
  intro key alpha str id f x inj h hx rows
  obtain ⟨idx, symbols⟩ := symbolsAre_of_parseCode_ok h
  rw [parseCode_of_symbolsAre key inj symbols, parsePayload_eq_ok_iff] at h
  obtain ⟨passes, recovered, rfl⟩ := h
  obtain rfl : x = idx 2 := by
    rw [← ofNat_positionOf x, inj _ _ (hx.symm.trans (symbols 2)), ofNat_positionOf]
  have recovered' : recoveredId key (pack (sigBits (unpack idx)) (freshBits (unpack idx) ^^^ 8) (obfBits (unpack idx)))
      = id := by
    rw [recoveredId, freshBits_pack, obfBits_pack, ← obf_of_row_eq rows]
    exact recovered
  have set := parseCode_of_symbolsAre key inj (symbolsAre_set symbols 2 (idx 2 ^^^ 1))
  refine set.trans ?_
  rw [unpack_flip_fresh, parsePayload_eq_ok_iff]
  refine ⟨?_, recovered', freshBits_pack _ _ _⟩
  rw [signaturePasses, recovered', freshBits_pack, sigBits_pack, ← sigSum_of_row_eq rows, ← recovered]
  exact passes

end Sys2Proof.ParseCommand
end

section
/-! The boot sequence: LOADKEYS and LOADALPHA write every entry of the tables, and the commit then finds them sound
(70_reset_and_hazards.md R283; 30_encoding.md R97). -/

namespace Sys2Proof.Boot
open Sys2Proof.Machine Sys2Proof.Safety Sys2Proof.TableWrites Sys2Proof.CommandEnds

/-! ### Runs of table writes -/

section
variable {ι β : Type} {write : ι → Instr} {store : ι → Block → Block} {rest : Block → β} {Has : ι → Block → Prop}

/-- A run of writes from UNCONFIGURED, each of which stores its own place, keeps the places that hold already, and leaves
the rest of the block: all its places hold at the end. -/
theorem execAll_stores
    (hexec : ∀ x s, s.block.cfgState = .unconfigured → exec (write x) s = .next (runWrite (store x) s))
    (cfg : ∀ x b, (store x b).cfgState = b.cfgState) (frame : ∀ x b, rest (store x b) = rest b)
    (has : ∀ x y b, y = x ∨ Has y b → Has y (store x b)) (xs : List ι) :
    ∀ s : State, s.block.cfgState = .unconfigured →
      ∃ t, execAll (xs.map write) s = some t ∧ t.policy = s.policy ∧ rest t.block = rest s.block ∧
        ∀ x, x ∈ xs ∨ Has x s.block → Has x t.block := by
  induction xs with
  | nil => exact fun s _ => ⟨s, rfl, rfl, rfl, fun x h => h.resolve_left List.not_mem_nil⟩
  | cons x xs ih =>
    intro s unconfigured
    obtain ⟨t, ht, policy, same, hold⟩ := ih (runWrite (store x) s) ((cfg x s.block).trans unconfigured)
    refine ⟨t, ?_, policy, same.trans (frame x s.block), fun y h => hold y ?_⟩
    · simp only [List.map_cons, execAll, hexec x s unconfigured, ht]
    · rw [List.mem_cons, or_assoc, or_left_comm] at h
      exact h.imp_right (has x y s.block)

end

/-! ### LOADKEYS -/

/-- The entries of the KeyTable, in row-major order. -/
def entries : List (Fin 16 × Fin 8) := rows.flatMap fun r => columns.map fun c => (r, c)

theorem mem_entries (r : Fin 16) (c : Fin 8) : (r, c) ∈ entries :=
  List.mem_flatMap.mpr ⟨r, mem_rows r, List.mem_map.mpr ⟨c, mem_columns c, rfl⟩⟩

/-- An entry of a KeyTable as the bus word that LOADKEYS writes (R97). -/
abbrev entryWord (key : KeyTable) (e : Fin 16 × Fin 8) : Word := ((key[e.1])[e.2]).setWidth 32

theorem loadKeys_eq (key : KeyTable) :
    loadKeys key = entries.map fun e => .wrKey e.1 e.2 (entryWord key e) := by
  simp only [loadKeys, entries, List.map_flatMap, List.map_map]
  rfl

/-- An entry of a KeyTable is in range, so its write stores it whole and records nothing (R127). -/
theorem storeKey_setWidth (r : Fin 16) (c : Fin 8) (x : KeyEntry) (b : Block) :
    storeKey r c (x.setWidth 32) b =
      { b with key := setEntry b.key r c x, keyValid := setEntry b.keyValid r c true } := by
  have low : (x.setWidth 32).extractLsb' 0 16 = x := by
    apply BitVec.eq_of_toNat_eq
    rw [toNat_field, BitVec.toNat_setWidth]
    omega
  have high : ((x.setWidth 32).extractLsb' 16 16 != 0) = false := by
    rw [high_bits_ne_zero _ rfl, decide_eq_false_iff_not, BitVec.toNat_setWidth]
    omega
  rw [storeKey, low, high, Bool.or_false]

/-- Entry `e` of the table `key` stands in the block, written. -/
def HasEntry (key : KeyTable) (e : Fin 16 × Fin 8) (b : Block) : Prop :=
  (b.key[e.1])[e.2] = (key[e.1])[e.2] ∧ (b.keyValid[e.1])[e.2] = true

theorem hasEntry_storeKey (key : KeyTable) (e e' : Fin 16 × Fin 8) (b : Block) (h : e' = e ∨ HasEntry key e' b) :
    HasEntry key e' (storeKey e.1 e.2 (entryWord key e) b) := by
  rw [storeKey_setWidth, HasEntry]
  simp only [setEntry_get]
  split
  case isTrue same => simp only [same, and_self]
  case isFalse other => exact h.resolve_left fun he => other ⟨congrArg Prod.fst he, congrArg Prod.snd he⟩

/-- The block but for KEY and its valid bits. -/
def withoutKeys (b : Block) : Block := { b with key := Block.reset.key, keyValid := Block.reset.keyValid }

/-- LOADKEYS while UNCONFIGURED fills KEY and its valid bits, and leaves the rest of the block (R97, R127). -/
theorem execAll_loadKeys (key : KeyTable) {s : State} (unconfigured : s.block.cfgState = .unconfigured) :
    ∃ t, execAll (loadKeys key) s = some t ∧ t.policy = s.policy ∧
      t.block = { withoutKeys s.block with
        key := key, keyValid := Vector.replicate 16 (Vector.replicate 8 true) } := by
  rw [loadKeys_eq]
  obtain ⟨t, ht, policy, rest, hold⟩ := execAll_stores (rest := withoutKeys) (Has := HasEntry key)
    (store := fun e => storeKey e.1 e.2 (entryWord key e))
    (fun e s h => by rw [exec_wrKey, runWrite_unlessLocked _ h]) (fun _ _ => rfl)
    (fun e b => by rw [storeKey_setWidth]; rfl) (hasEntry_storeKey key) entries s unconfigured
  have stored (r : Fin 16) (c : Fin 8) := hold (r, c) (.inl (mem_entries r c))
  have keys : t.block.key = key := table_ext fun r c => (stored r c).1
  have valid : t.block.keyValid = Vector.replicate 16 (Vector.replicate 8 true) := table_ext fun r c => by
    simpa using (stored r c).2
  refine ⟨t, ht, policy, ?_⟩
  rw [← rest, ← keys, ← valid]
  rfl

/-! ### LOADALPHA -/

/-- A symbol is in range, so its write stores it whole and records nothing (R129). -/
theorem storeAlpha_setWidth (j : Fin 32) (x : Byte) (b : Block) :
    storeAlpha j (x.setWidth 32) b =
      { b with alpha := b.alpha.set j.val x, alphaValid := b.alphaValid.set j.val true } := by
  have low : (x.setWidth 32).extractLsb' 0 8 = x := by
    apply BitVec.eq_of_toNat_eq
    rw [toNat_field, BitVec.toNat_setWidth]
    omega
  have high : ((x.setWidth 32).extractLsb' 8 24 != 0) = false := by
    rw [high_bits_ne_zero _ rfl, decide_eq_false_iff_not, BitVec.toNat_setWidth]
    omega
  rw [storeAlpha, low, high, Bool.or_false]

/-- Symbol `j` of the Alphabet `alpha` stands in the block, written. -/
def HasSymbol (alpha : Alphabet) (j : Fin 32) (b : Block) : Prop := b.alpha[j] = alpha[j] ∧ b.alphaValid[j] = true

theorem hasSymbol_storeAlpha (alpha : Alphabet) (j j' : Fin 32) (b : Block) (h : j' = j ∨ HasSymbol alpha j' b) :
    HasSymbol alpha j' (storeAlpha j ((alpha[j]).setWidth 32) b) := by
  rw [storeAlpha_setWidth, HasSymbol]
  simp only [set_get]
  split
  case isTrue same => simp only [same, and_self]
  case isFalse other => exact h.resolve_left other

/-- The block but for ALPHA and its valid bits. -/
def withoutSymbols (b : Block) : Block := { b with alpha := Block.reset.alpha, alphaValid := Block.reset.alphaValid }

/-- LOADALPHA while UNCONFIGURED fills ALPHA and its valid bits, and leaves the rest of the block (R97, R129). -/
theorem execAll_loadAlpha (alpha : Alphabet) {s : State} (unconfigured : s.block.cfgState = .unconfigured) :
    ∃ t, execAll (loadAlpha alpha) s = some t ∧ t.policy = s.policy ∧
      t.block = { withoutSymbols s.block with alpha := alpha, alphaValid := Vector.replicate 32 true } := by
  rw [loadAlpha]
  obtain ⟨t, ht, policy, rest, hold⟩ := execAll_stores (rest := withoutSymbols) (Has := HasSymbol alpha)
    (store := fun j => storeAlpha j ((alpha[j]).setWidth 32))
    (fun j s h => by rw [exec_wrAlpha, runWrite_unlessLocked _ h]) (fun _ _ => rfl)
    (fun j b => by rw [storeAlpha_setWidth]; rfl) (hasSymbol_storeAlpha alpha) (List.finRange 32) s unconfigured
  have stored (j : Fin 32) := hold j (.inl (List.mem_finRange j))
  have symbols : t.block.alpha = alpha := Vector.ext fun j hj => (stored ⟨j, hj⟩).1
  have valid : t.block.alphaValid = Vector.replicate 32 true := Vector.ext fun j hj => by
    simpa using (stored ⟨j, hj⟩).2
  refine ⟨t, ht, policy, ?_⟩
  rw [← rest, ← symbols, ← valid]
  rfl

/-! ### The whole sequence -/

/-- The block after reset with a KeyTable and an Alphabet written, not committed. -/
def loadedBlock (key : KeyTable) (alpha : Alphabet) : Block :=
  { Block.reset with
    key := key, keyValid := Vector.replicate 16 (Vector.replicate 8 true),
    alpha := alpha, alphaValid := Vector.replicate 32 true }

/-- LOADKEYS and LOADALPHA from the block after reset (R97, R283). -/
theorem execAll_load {s : State} (h : s.block = Block.reset) (key : KeyTable) (alpha : Alphabet) :
    ∃ t, execAll (loadKeys key ++ loadAlpha alpha) s = some t ∧ t.policy = s.policy ∧
      t.block = loadedBlock key alpha := by
  obtain ⟨t, ht, policy_t, block_t⟩ := execAll_loadKeys key (s := s) (by rw [h]; rfl)
  rw [h] at block_t
  obtain ⟨u, hu, policy_u, block_u⟩ := execAll_loadAlpha alpha (s := t) (by rw [block_t]; rfl)
  rw [block_t] at block_u
  exact ⟨u, (execAll_append _ _ s t ht).trans hu, policy_u.trans policy_t, block_u⟩

/-- Tables that are written whole, in range, with distinct symbols and within capacity pass the check (R132). -/
theorem committed_of_loadedBlock {s : State} {key : KeyTable} {alpha : Alphabet} (h : s.block = loadedBlock key alpha)
    (inj : AlphaInjective alpha) (capacity : s.policy = .reject → CapacityRespected key) : Committed s where
  keyWritten r c := by simp [h, loadedBlock]
  alphaWritten j := by simp [h, loadedBlock]
  keyInRange := by rw [h]; rfl
  alphaInRange := by rw [h]; rfl
  injective := by rw [h]; exact inj
  capacity := by rw [h]; exact capacity

/-- Settles O56: the writes load the tables over the block after reset, and CFG.COMMIT finds them sound. -/
theorem bootSequenceReachesReady : Obligations.BootSequenceReachesReady := by
  intro s key alpha hreset inj capacity
  obtain ⟨t, ht, policy, loaded⟩ := execAll_load hreset key alpha
  have sound : Committed t := committed_of_loadedBlock loaded inj (by rwa [policy])
  obtain ⟨u, hu, _, ready, _, ok, _, ⟨key_u, _, _, alpha_u, _⟩, _, _, status⟩ :=
    commitOfSoundTablesSucceeds t (by rw [loaded]; rfl) sound
  refine ⟨u, ?_, ready, by rw [key_u, loaded]; rfl, by rw [alpha_u, loaded]; rfl, ok, ?_⟩
  · rw [execAll_append _ _ s t ht]
    simp only [execAll, hu]
  · have before : reads t 0x004 = reads State.reset 0x004 := by
      rw [ConfigCommands.reads_status, loaded]
      rfl
    rw [status, before]
    decide

end Sys2Proof.Boot
end

section
/-! The invariant of the block: it holds at reset, and every step keeps it (40_configuration.md R135; 30_encoding.md R86,
R87; 10_state.md R35; 42_batch.md R181; 44_register_access.md R238). -/

namespace Sys2Proof.Invariant
open Sys2Proof.Machine Sys2Proof.Safety

/-! ### Each part depends on its own fields -/

theorem committed_of_sameTables {s t : State} (h : Committed s) (tables : SameTables t.block s.block)
    (policy : t.policy = s.policy) : Committed t := by
  obtain ⟨key, keyValid, keyRange, alpha, alphaValid, alphaRange⟩ := tables
  exact ⟨by rw [keyValid]; exact h.keyWritten, by rw [alphaValid]; exact h.alphaWritten, keyRange.trans h.keyInRange,
    alphaRange.trans h.alphaInRange, by rw [alpha]; exact h.injective, by rw [policy, key]; exact h.capacity⟩

theorem statusSound_of_same {s t : State} (h : StatusSound s) (err : t.block.err = s.block.err)
    (cause : t.block.cause = s.block.cause) (policy : t.policy = s.policy) : StatusSound t := by
  obtain ⟨produced, config, format, others⟩ := h
  exact ⟨by rwa [err], by rwa [err, cause, policy], by rwa [err, cause], by rwa [err, cause]⟩

/-- Codes without a cause: OK and every error but CONFIG_ERROR, DECODE_FORMAT and FRESH_RANGE (R86, R87). -/
theorem statusSound_of_noCause {t : State} (err : t.block.err ∈ ([0, 2, 5, 6, 7, 8, 9] : List (BitVec 4)))
    (cause : t.block.cause = 0) : StatusSound t := by
  have range : ∀ e ∈ ([0, 2, 5, 6, 7, 8, 9] : List (BitVec 4)), (e.toNat ≤ 9 ∧ e ≠ 4) ∧ e ≠ 1 ∧ e ≠ 3 := by decide
  obtain ⟨produced, notConfig, notFormat⟩ := range _ err
  exact ⟨produced, fun h => absurd h notConfig, fun h => absurd h notFormat, fun _ _ => cause⟩

theorem resultsSound_of_noResults {b : Block} (h : NoResults b) : ResultsSound b := by
  have ⟨_, _, _, out⟩ := h
  have invalid : b.outValid ≠ true := by simp [out]
  exact ⟨fun _ => h, fun valid => absurd valid invalid, fun valid => absurd valid invalid,
    fun valid => absurd valid invalid⟩

theorem batchSound_of_same {a b : Block} (h : BatchSound a) (cfg : b.cfgState = a.cfgState) (batch : SameBatch b a) :
    BatchSound b := by
  obtain ⟨next, remaining⟩ := batch
  exact ⟨by rw [cfg, next, remaining]; exact h.inactive, by rw [next, remaining]; exact h.inRange⟩

theorem unwrittenZero_of_sameTables {a b : Block} (h : UnwrittenZero a) (tables : SameTables b a) :
    UnwrittenZero b := by
  obtain ⟨key, keyValid, _, alpha, alphaValid, _⟩ := tables
  exact ⟨by rw [key, keyValid]; exact h.key, by rw [alpha, alphaValid]; exact h.alpha⟩

/-- Valid results next to an unchanged or a CONFIG_LOCKED status (R258). -/
theorem resultsSound_of_same {a b : Block} (h : ResultsSound a) (results : SameResults b a)
    (cfg : b.cfgState = a.cfgState) (key : b.key = a.key) (alpha : b.alpha = a.alpha)
    (err : b.err = a.err ∨ b.err = 8) : ResultsSound b := by
  obtain ⟨idOut, freshOut, codeOut, outValid⟩ := results
  refine ⟨fun invalid => ?_, fun valid => ?_, fun valid => ?_, fun valid => ?_⟩
  · obtain ⟨id, fresh, code, out⟩ := h.zeroed (outValid ▸ invalid)
    exact ⟨idOut.trans id, freshOut.trans fresh, by rwa [codeOut], invalid⟩
  · exact cfg.trans (h.configured (outValid ▸ valid))
  · exact err.elim (fun e => e ▸ h.status (outValid ▸ valid)) .inr
  · rw [codeOut, key, alpha, idOut, freshOut]
    exact h.code (outValid ▸ valid)

theorem resultsSound_of_shown {b : Block} (ready : b.cfgState = .ready) (ok : b.err = 0) (valid : b.outValid = true)
    (code : b.codeOut = Vector.replicate 10 0 ∨ b.codeOut = genCode b.key b.alpha b.idOut b.freshOut) :
    ResultsSound b :=
  ⟨fun invalid => by simp [valid] at invalid, fun _ => ready, fun _ => .inl ok, fun _ => code⟩

theorem sameTables_refl (b : Block) : SameTables b b := ⟨rfl, rfl, rfl, rfl, rfl, rfl⟩

/-- Where the tables and the configuration state stand, the status, the results and the batch are left to look at. -/
theorem inv_of_sameTables {s t : State} (h : Inv s) (cfg : t.block.cfgState = s.block.cfgState)
    (tables : SameTables t.block s.block) (policy : t.policy = s.policy) (status : StatusSound t)
    (results : ResultsSound t.block) (batch : BatchSound t.block) : Inv t where
  committed ready := committed_of_sameTables (h.committed (cfg ▸ ready)) tables policy
  status := status
  results := results
  batch := batch
  unwritten := unwrittenZero_of_sameTables h.unwritten tables

/-- The invariant does not look at the operands, ERR_STICKY, the port, the bus answer or the draw counter. -/
theorem inv_of_same {s t : State} (h : Inv s) (cfg : t.block.cfgState = s.block.cfgState)
    (tables : SameTables t.block s.block) (results : SameResults t.block s.block) (err : t.block.err = s.block.err)
    (cause : t.block.cause = s.block.cause) (batch : SameBatch t.block s.block) (policy : t.policy = s.policy) :
    Inv t := by
  have ⟨key, _, _, alpha, _, _⟩ := tables
  exact inv_of_sameTables h cfg tables policy (statusSound_of_same h.status err cause policy)
    (resultsSound_of_same h.results results cfg key alpha (.inl err)) (batchSound_of_same h.batch cfg batch)

theorem inv_finish (r : Response) {s : State} (h : Inv s) : Inv (finish r s) :=
  inv_of_same h rfl (sameTables_refl s.block) ⟨rfl, rfl, rfl, rfl⟩ rfl rfl ⟨rfl, rfl⟩ rfl

/-! ### Reset -/

/-- The block after reset is sound under either policy (R280). -/
theorem inv_of_block_reset {s : State} (h : s.block = Block.reset) : Inv s where
  committed ready := by simp [h] at ready
  status := statusSound_of_noCause (by simp [h]) (by simp [h])
  results := resultsSound_of_noResults (h ▸ ResetState.reset_noResults)
  batch := ⟨by simp [h], by simp [h]⟩
  unwritten := ⟨by simp [h], by simp [h]⟩

/-- Settles O54: the state after reset holds the block after reset. -/
theorem invariantHoldsAtReset : Obligations.InvariantHoldsAtReset := inv_of_block_reset rfl

/-! ### Commands -/

/-- The prologue leaves no results and ERR = OK (R120). -/
theorem inv_prologue {s : State} (h : Inv s) : Inv (onBlock prologue s) :=
  inv_of_sameTables h rfl (sameTables_refl s.block) rfl (statusSound_of_noCause (by simp) rfl)
    (resultsSound_of_noResults (prologue_noResults s.block)) (batchSound_of_same h.batch rfl ⟨rfl, rfl⟩)

/-- CAUSE of CONFIG_ERROR is made of bits 5 to 0 (R87). -/
theorem configCheck_lt (p : SigOvfPolicy) (b : Block) : (configCheck p b).toNat < 64 := by
  have high := congrArg BitVec.toNat (ConfigChecks.configCheck_high p b)
  rw [toNat_field] at high
  have := (configCheck p b).isLt
  simp at high
  omega

theorem toNat_unknownSymbolCause (k : Fin 10) : (unknownSymbolCause k).toNat = 2 + 16 * k.val := by
  rw [unknownSymbolCause, BitVec.toNat_ofNat]
  omega

/-- An error that a command reports has the CAUSE of its code (R86, R87). -/
theorem statusSound_of_reports {s t : State} {c : Cmd} {e : ErrCode} {x : Byte} (h : Reports s c e x)
    (err : t.block.err = e.code) (cause : t.block.cause = x) (policy : t.policy = s.policy) : StatusSound t := by
  cases h with
  | config _ failed =>
    refine ⟨by simp [err, ErrCode.code], fun _ => ⟨cause ▸ failed, cause ▸ configCheck_lt _ _, fun truncate => ?_⟩,
      by simp [err, ErrCode.code], by simp [err, ErrCode.code]⟩
    rw [cause, ← policy, truncate, configCheck_getLsbD]
    exact ConfigChecks.capacityCause_truncate s.block
  | parse e x _ hparse =>
    rcases parseCode_error hparse with ⟨rfl, hx⟩ | ⟨rfl, rfl⟩
    · refine ⟨by simp [err, ErrCode.code], by simp [err, ErrCode.code], fun _ => ?_, by simp [err, ErrCode.code]⟩
      rw [cause]
      exact hx.imp id fun ⟨k, hk⟩ => ⟨k, hk ▸ toNat_unknownSymbolCause k⟩
    · exact statusSound_of_noCause (by simp [err, ErrCode.code]) cause
  | _ => exact statusSound_of_noCause (by simp [err, ErrCode.code]) cause

/-- A reported error keeps the invariant where no result is shown (R121). -/
theorem inv_raiseIn {s : State} {c : Cmd} {e : ErrCode} {x : Byte} (h : Inv s) (noResults : NoResults s.block)
    (report : Reports s c e x) : Inv (raiseIn e x s) :=
  inv_of_sameTables h rfl (sameTables_refl s.block) rfl (statusSound_of_reports report rfl rfl rfl)
    (resultsSound_of_noResults noResults) (batchSound_of_same h.batch rfl ⟨rfl, rfl⟩)

/-- CFG_CLEAR leaves nothing written, and no Codec (R130). -/
theorem inv_clear {s : State} (h : Inv s) (noResults : NoResults s.block) : Inv (onBlock clearConfiguration s) where
  committed ready := by cases ready
  status := statusSound_of_same h.status rfl rfl rfl
  results := resultsSound_of_noResults noResults
  batch := ⟨fun _ => ⟨rfl, rfl⟩, fun more => absurd rfl more⟩
  unwritten := ⟨by simp, by simp⟩

/-- A commit that passes its check has a sound configuration (R131, R132). -/
theorem inv_commit {s : State} (h : Inv s) (noResults : NoResults s.block) (passed : configCheck s.policy s.block = 0) :
    Inv (onBlock (fun b => { b with cfgState := .ready }) s) where
  committed _ :=
    committed_of_sameTables ((configCheck_zero_iff s).mp passed) (sameTables_refl s.block) rfl
  status := statusSound_of_same h.status rfl rfl rfl
  results := resultsSound_of_noResults noResults
  batch := ⟨nofun, h.batch.inRange⟩
  unwritten := unwrittenZero_of_sameTables h.unwritten (sameTables_refl s.block)

/-- A range that BATCH_START accepts does not run past 0xFFFFFFFF (R180). -/
theorem batchSound_loadBatch {b : Block} (ready : b.cfgState = .ready) (fits : ¬ batchOverflows b) :
    BatchSound (loadBatch b) where
  inactive unconfigured := by simp [ready] at unconfigured
  inRange more := Nat.le_of_not_gt fun beyond => fits ⟨more, beyond⟩

/-- A batch that advances comes no nearer to its end (R181). -/
theorem batchSound_advanceBatch {b : Block} (ready : b.cfgState = .ready) (more : b.batchRemaining ≠ 0)
    (h : BatchSound b) : BatchSound (advanceBatch b) where
  inactive unconfigured := by simp [ready] at unconfigured
  inRange left := by
    have range : b.batchNextId.toNat + b.batchRemaining.toNat - 1 ≤ 0xFFFFFFFF := h.inRange more
    have left' : b.batchRemaining - 1 ≠ 0 := left
    have count : (b.batchRemaining - 1).toNat + 1 = b.batchRemaining.toNat := BatchRuns.toNat_sub_one more
    have positive : (b.batchRemaining - 1).toNat ≠ 0 := fun h0 => left' (BitVec.eq_of_toNat_eq h0)
    rw [advanceBatch_batchNextId, advanceBatch_batchRemaining, BitVec.toNat_add, Config.maxIdentifier]
    have one : (1 : Word).toNat = 1 := rfl
    omega

theorem codeOut_eq_of_noResults {b : Block} (h : NoResults b) : b.codeOut = Vector.replicate 10 0 := by
  obtain ⟨_, _, code, _⟩ := h
  refine Vector.ext fun k hk => ?_
  rw [Vector.getElem_replicate]
  exact code ⟨k, hk⟩

/-- Every command body keeps the invariant on the block that the prologue leaves (R121, R122). -/
theorem inv_commandBody (c : Cmd) {s : State} (h : Inv s) (noResults : NoResults s.block) (ok : s.block.err = 0) :
    Inv (commandBody c s) := by
  rcases commandBody_cases c s with ⟨e, x, report, hb⟩ | ⟨_, hb⟩ | ⟨_, hb⟩ | ⟨_, _, passed, hb⟩ |
    ⟨sel, _, ready, hb⟩ | ⟨id, f, _, ready, _, hb⟩ | ⟨_, ready, fits, hb⟩ | ⟨sel, _, ready, more, hb⟩ <;> rw [hb]
  · exact inv_raiseIn h noResults report
  · exact h
  · exact inv_clear h noResults
  · exact inv_commit h noResults passed
  · exact inv_of_sameTables h (by simp) (by simp [SameTables]) (by simp)
      (statusSound_of_same h.status (by simp) (by simp) (by simp))
      (resultsSound_of_shown (by simp [ready]) (by simp [ok]) (by simp) (.inr (by simp)))
      (batchSound_of_same h.batch (by simp) (by simp [SameBatch]))
  · exact inv_of_sameTables h rfl (sameTables_refl s.block) rfl (statusSound_of_same h.status rfl rfl rfl)
      (resultsSound_of_shown ready ok rfl (.inl (codeOut_eq_of_noResults (b := s.block) noResults)))
      (batchSound_of_same h.batch rfl ⟨rfl, rfl⟩)
  · exact inv_of_sameTables h rfl (sameTables_refl s.block) rfl (statusSound_of_same h.status rfl rfl rfl)
      (resultsSound_of_noResults noResults) (batchSound_loadBatch ready fits)
  · refine inv_of_sameTables h (by simp) (by simp [SameTables]) (by simp)
      (statusSound_of_same h.status (by simp) (by simp) (by simp))
      (resultsSound_of_shown (by simp [ready]) (by simp [ok]) (by simp) (.inr (by simp))) ?_
    rw [onBlock_block, freshSel_block]
    exact batchSound_advanceBatch ready more (batchSound_of_same h.batch rfl ⟨rfl, rfl⟩)

/-! ### Table writes -/

/-- A table write keeps the invariant: while READY it only reports CONFIG_LOCKED (R258), and while UNCONFIGURED no result is
shown, so only what it stores matters. -/
theorem inv_tableWrite {action : Block → Block} {s : State} (h : Inv s)
    (cfg : (action s.block).cfgState = s.block.cfgState) (results : SameResults (action s.block) s.block)
    (err : (action s.block).err = s.block.err) (cause : (action s.block).cause = s.block.cause)
    (batch : SameBatch (action s.block) s.block) (unwritten : UnwrittenZero (action s.block)) :
    Inv (onBlock (unlessLocked action) s) := by
  cases hs : s.block.cfgState with
  | ready =>
    have block : (onBlock (unlessLocked action) s).block = raise .configLocked 0 s.block := unlessLocked_ready action hs
    exact inv_of_sameTables h (by rw [block]; rfl) (block ▸ sameTables_refl s.block) rfl
      (statusSound_of_noCause (by rw [block]; simp [ErrCode.code]) (by rw [block]; rfl))
      (block ▸ resultsSound_of_same h.results ⟨rfl, rfl, rfl, rfl⟩ rfl rfl rfl (.inr rfl))
      (block ▸ batchSound_of_same h.batch rfl ⟨rfl, rfl⟩)
  | unconfigured =>
    have block : (onBlock (unlessLocked action) s).block = action s.block := unlessLocked_unconfigured action hs
    have invalid : s.block.outValid = false := by
      cases valid : s.block.outValid with
      | false => rfl
      | true => have := h.results.configured valid; simp [hs] at this
    obtain ⟨idOut, freshOut, codeOut, outValid⟩ := results
    obtain ⟨id, fresh, code, _⟩ := h.results.zeroed invalid
    exact {
      committed := fun ready => by rw [block, cfg, hs] at ready; cases ready
      status := statusSound_of_same h.status (by rw [block, err]) (by rw [block, cause]) rfl
      results := block ▸ resultsSound_of_noResults
        ⟨idOut.trans id, freshOut.trans fresh, by rwa [codeOut], outValid.trans invalid⟩
      batch := block ▸ batchSound_of_same h.batch cfg batch
      unwritten := block ▸ unwritten }

theorem unwrittenZero_storeKey (r : Fin 16) (c : Fin 8) (v : Word) {b : Block} (h : UnwrittenZero b) :
    UnwrittenZero (storeKey r c v b) where
  key r' c' unwritten := by
    rw [storeKey_keyValid, setEntry_get] at unwritten
    rw [storeKey_key, setEntry_get]
    split_ifs at unwritten ⊢
    exact h.key r' c' unwritten
  alpha := h.alpha

theorem unwrittenZero_storeAlpha (j : Fin 32) (v : Word) {b : Block} (h : UnwrittenZero b) :
    UnwrittenZero (storeAlpha j v b) where
  key := h.key
  alpha j' unwritten := by
    rw [storeAlpha_alphaValid, TableWrites.set_get] at unwritten
    rw [storeAlpha_alpha, TableWrites.set_get]
    split_ifs at unwritten ⊢
    exact h.alpha j' unwritten

/-! ### The step -/

/-- Every instruction keeps the invariant. -/
theorem inv_exec {i : Instr} {s t : State} (h : Inv s) (ht : exec i s = .next t) : Inv t := by
  cases hc : commandOf i with
  | some c =>
    rw [exec_command hc] at ht
    cases ht
    exact inv_finish _ (inv_commandBody c (inv_prologue h) (prologue_noResults s.block) rfl)
  | none =>
    cases i <;> simp only [commandOf, reduceCtorEq] at hc
    case wrKey r c v =>
      cases ht
      exact inv_finish _ (inv_tableWrite h rfl ⟨rfl, rfl, rfl, rfl⟩ rfl rfl ⟨rfl, rfl⟩
        (unwrittenZero_storeKey r c v h.unwritten))
    case wrAlpha j v =>
      cases ht
      exact inv_finish _ (inv_tableWrite h rfl ⟨rfl, rfl, rfl, rfl⟩ rfl rfl ⟨rfl, rfl⟩
        (unwrittenZero_storeAlpha j v h.unwritten))
    case wrStatus v =>
      rw [exec_wrStatus] at ht
      cases ht
      exact inv_of_same h (by simp) (by simp [SameTables]) (by simp [SameResults]) (by simp) (by simp)
        (by simp [SameBatch]) rfl
    all_goals
      cases ht
      exact inv_of_same h rfl (sameTables_refl s.block) ⟨rfl, rfl, rfl, rfl⟩ rfl rfl ⟨rfl, rfl⟩ rfl

/-- Settles O55: instructions keep the invariant, an ignored write does not touch the block, and a reset restores it. -/
theorem everyStepKeepsInvariant : Obligations.EveryStepKeepsInvariant := by
  intro s t h hstep
  rcases step_cases hstep with ⟨_, rfl⟩ | ⟨_, _, _, _, _, hexec⟩ | ⟨_, _, _, _, _, rfl⟩ | ⟨_, _, rfl⟩
  · exact h
  · exact inv_exec h hexec
  · exact inv_finish .done h
  · exact inv_of_block_reset rfl

end Sys2Proof.Invariant
end
